-- ==== Sys2Proof/Word.lean ====
section
/-! DEFINITION. The value types of the block (spec/10_state.md R28, spec/00_scope.md R8, R15). -/

namespace Sys2Proof

/-- A 32-bit value: an instruction word, an address, a target, or an immediate after sign
extension (R8). Bit 0 is the least significant bit (R13). -/
abbrev Word := BitVec 32

/-- One byte of the packed `text` port (R29), or of the bench's memory (R40). -/
abbrev Byte := BitVec 8

/-- A register index, 0 to 31 (R8). The block handles indices only; it has no register file (R21). -/
abbrev RegIdx := BitVec 5

/-- A CSR index (R8, R70). The block has no CSR; it prints the index (R24). -/
abbrev CsrIdx := BitVec 12

/-- A line of text: its characters, index 0 the leftmost (R15). -/
abbrev Text := List Char

end Sys2Proof
end

