-- ==== Sys2Proof/Syntax.lean ====
section
/-! DEFINITION. The instructions: one constructor per row of spec/opcode_table.json (R2, R99). -/

namespace Sys2Proof

/-- A recognised instruction, as the fields of its word (R62). `imm` and `off` are the signed 32-bit
immediates of R63 to R67. `f3` and `f7` are the bits the block neither examines nor renders (R80; the
`x` of the table's `encoding`); they are kept so that a word and its instruction determine each other
(DESIGN CHOICE, log 7). -/
inductive Instr where
  /-- R100 -/
  | lui (rd : RegIdx) (imm20 : BitVec 20)
  /-- R101 -/
  | auipc (rd : RegIdx) (imm20 : BitVec 20)
  /-- R105 -/
  | jal (rd : RegIdx) (off : Word)
  /-- R106; `f3` is not examined -/
  | jalr (rd rs1 : RegIdx) (f3 : BitVec 3) (imm : Word)
  /-- R110 -/
  | ecall
  /-- R111 -/
  | ebreak
  /-- R112 -/
  | csrrw (rd : RegIdx) (csr : CsrIdx) (rs1 : RegIdx)
  /-- R113 -/
  | csrrs (rd : RegIdx) (csr : CsrIdx) (rs1 : RegIdx)
  /-- R114 -/
  | csrrc (rd : RegIdx) (csr : CsrIdx) (rs1 : RegIdx)
  /-- R115 -/
  | csrrwi (rd : RegIdx) (csr : CsrIdx) (zimm : BitVec 5)
  /-- R116 -/
  | csrrsi (rd : RegIdx) (csr : CsrIdx) (zimm : BitVec 5)
  /-- R117 -/
  | csrrci (rd : RegIdx) (csr : CsrIdx) (zimm : BitVec 5)
  /-- R125 -/
  | add (rd rs1 rs2 : RegIdx)
  /-- R126 -/
  | sub (rd rs1 rs2 : RegIdx)
  /-- R127; `f7` is not examined -/
  | sll (rd rs1 rs2 : RegIdx) (f7 : BitVec 7)
  /-- R128; `f7` is not examined -/
  | slt (rd rs1 rs2 : RegIdx) (f7 : BitVec 7)
  /-- R129; `f7` is not examined -/
  | sltu (rd rs1 rs2 : RegIdx) (f7 : BitVec 7)
  /-- R130; `f7` is not examined -/
  | xor (rd rs1 rs2 : RegIdx) (f7 : BitVec 7)
  /-- R131 -/
  | srl (rd rs1 rs2 : RegIdx)
  /-- R132 -/
  | sra (rd rs1 rs2 : RegIdx)
  /-- R133; `f7` is not examined -/
  | or (rd rs1 rs2 : RegIdx) (f7 : BitVec 7)
  /-- R134; `f7` is not examined -/
  | and (rd rs1 rs2 : RegIdx) (f7 : BitVec 7)
  /-- R140 -/
  | addi (rd rs1 : RegIdx) (imm : Word)
  /-- R141 -/
  | slti (rd rs1 : RegIdx) (imm : Word)
  /-- R142 -/
  | sltiu (rd rs1 : RegIdx) (imm : Word)
  /-- R143 -/
  | xori (rd rs1 : RegIdx) (imm : Word)
  /-- R144 -/
  | ori (rd rs1 : RegIdx) (imm : Word)
  /-- R145 -/
  | andi (rd rs1 : RegIdx) (imm : Word)
  /-- R146; `f7` is not examined -/
  | slli (rd rs1 : RegIdx) (shamt : BitVec 5) (f7 : BitVec 7)
  /-- R147 -/
  | srli (rd rs1 : RegIdx) (shamt : BitVec 5)
  /-- R148 -/
  | srai (rd rs1 : RegIdx) (shamt : BitVec 5)
  /-- R155 -/
  | lb (rd rs1 : RegIdx) (imm : Word)
  /-- R156 -/
  | lh (rd rs1 : RegIdx) (imm : Word)
  /-- R157 -/
  | lw (rd rs1 : RegIdx) (imm : Word)
  /-- R158 -/
  | lbu (rd rs1 : RegIdx) (imm : Word)
  /-- R159 -/
  | lhu (rd rs1 : RegIdx) (imm : Word)
  /-- R165 -/
  | sb (rs2 rs1 : RegIdx) (imm : Word)
  /-- R166 -/
  | sh (rs2 rs1 : RegIdx) (imm : Word)
  /-- R167 -/
  | sw (rs2 rs1 : RegIdx) (imm : Word)
  /-- R170 -/
  | beq (rs1 rs2 : RegIdx) (off : Word)
  /-- R171 -/
  | bne (rs1 rs2 : RegIdx) (off : Word)
  /-- R172 -/
  | blt (rs1 rs2 : RegIdx) (off : Word)
  /-- R173 -/
  | bge (rs1 rs2 : RegIdx) (off : Word)
  /-- R174 -/
  | bltu (rs1 rs2 : RegIdx) (off : Word)
  /-- R175 -/
  | bgeu (rs1 rs2 : RegIdx) (off : Word)
  deriving DecidableEq, Repr

end Sys2Proof
end

