-- ==== Sys2Proof/WellFormed.lean ====
section
/-! DEFINITION. Which instructions a word can hold: each immediate in the range of its format
(spec/30_encoding.md R63 to R67). Every other field is bounded by its type. -/

namespace Sys2Proof

/-- The I and S range, -2048 to 2047 (R63, R64). -/
def fitsImm12 (v : Word) : Bool := decide (-2048 ≤ v.toInt ∧ v.toInt ≤ 2047)

/-- The B range, even, -4096 to 4094 (R65). -/
def fitsImmB (v : Word) : Bool := decide (-4096 ≤ v.toInt ∧ v.toInt ≤ 4094 ∧ v.toInt % 2 = 0)

/-- The J range, even, -1048576 to 1048574 (R67). -/
def fitsImmJ (v : Word) : Bool :=
  decide (-1048576 ≤ v.toInt ∧ v.toInt ≤ 1048574 ∧ v.toInt % 2 = 0)

/-- The immediate of the instruction is one its format can represent. -/
def Instr.wf : Instr → Bool
  | .lui _ _ => true
  | .auipc _ _ => true
  | .jal _ off => fitsImmJ off
  | .jalr _ _ _ imm => fitsImm12 imm
  | .ecall => true
  | .ebreak => true
  | .csrrw _ _ _ => true
  | .csrrs _ _ _ => true
  | .csrrc _ _ _ => true
  | .csrrwi _ _ _ => true
  | .csrrsi _ _ _ => true
  | .csrrci _ _ _ => true
  | .add _ _ _ => true
  | .sub _ _ _ => true
  | .sll _ _ _ _ => true
  | .slt _ _ _ _ => true
  | .sltu _ _ _ _ => true
  | .xor _ _ _ _ => true
  | .srl _ _ _ => true
  | .sra _ _ _ => true
  | .or _ _ _ _ => true
  | .and _ _ _ _ => true
  | .addi _ _ imm => fitsImm12 imm
  | .slti _ _ imm => fitsImm12 imm
  | .sltiu _ _ imm => fitsImm12 imm
  | .xori _ _ imm => fitsImm12 imm
  | .ori _ _ imm => fitsImm12 imm
  | .andi _ _ imm => fitsImm12 imm
  | .slli _ _ _ _ => true
  | .srli _ _ _ => true
  | .srai _ _ _ => true
  | .lb _ _ imm => fitsImm12 imm
  | .lh _ _ imm => fitsImm12 imm
  | .lw _ _ imm => fitsImm12 imm
  | .lbu _ _ imm => fitsImm12 imm
  | .lhu _ _ imm => fitsImm12 imm
  | .sb _ _ imm => fitsImm12 imm
  | .sh _ _ imm => fitsImm12 imm
  | .sw _ _ imm => fitsImm12 imm
  | .beq _ _ off => fitsImmB off
  | .bne _ _ off => fitsImmB off
  | .blt _ _ off => fitsImmB off
  | .bge _ _ off => fitsImmB off
  | .bltu _ _ off => fitsImmB off
  | .bgeu _ _ off => fitsImmB off

end Sys2Proof
end

