-- ==== Sys2Proof/Decode.lean ====
section
/-! DEFINITION. The bit-field extractor (R56 to R70), the opcode classifier's tree from a word to an
instruction (R71 to R77), the encoder, and the opcode map as data (R99). -/

namespace Sys2Proof

/-! ## The bit-field extractor (R56 to R61) and the immediates (R63 to R70) -/

/-- R56 -/
def Field.opcode (w : Word) : BitVec 7 := w.extractLsb' 0 7
/-- R57 -/
def Field.rd (w : Word) : RegIdx := w.extractLsb' 7 5
/-- R58 -/
def Field.rs1 (w : Word) : RegIdx := w.extractLsb' 15 5
/-- R59 -/
def Field.rs2 (w : Word) : RegIdx := w.extractLsb' 20 5
/-- R60 -/
def Field.funct3 (w : Word) : BitVec 3 := w.extractLsb' 12 3
/-- R61 -/
def Field.funct7 (w : Word) : BitVec 7 := w.extractLsb' 25 7
/-- The 20-bit field that `lui` and `auipc` print: `word[31:12]` (R66, R89). -/
def Field.imm20 (w : Word) : BitVec 20 := w.extractLsb' 12 20

/-- R63 -/
def Field.immI (w : Word) : Word := (w.extractLsb' 20 12).signExtend 32
/-- R64 -/
def Field.immS (w : Word) : Word := (w.extractLsb' 25 7 ++ w.extractLsb' 7 5).signExtend 32
/-- R65 -/
def Field.immB (w : Word) : Word :=
  (w.extractLsb' 31 1 ++ w.extractLsb' 7 1 ++ w.extractLsb' 25 6 ++ w.extractLsb' 8 4 ++ 0#1).signExtend 32
/-- R66 -/
def Field.immU (w : Word) : Word := w.extractLsb' 12 20 ++ 0#12
/-- R67 -/
def Field.immJ (w : Word) : Word :=
  (w.extractLsb' 31 1 ++ w.extractLsb' 12 8 ++ w.extractLsb' 20 1 ++ w.extractLsb' 21 10 ++ 0#1).signExtend 32

/-- R69: `imm_i(word) mod 32`, which is the low five bits of the immediate. -/
def Field.shamt (w : Word) : BitVec 5 := (Field.immI w).extractLsb' 0 5
/-- R70 -/
def Field.csr (w : Word) : CsrIdx := w.extractLsb' 20 12
/-- R70: the bits of `rs1`, taken as an unsigned number. -/
def Field.zimm (w : Word) : BitVec 5 := w.extractLsb' 15 5

/-! ## The opcode classifier -/

/-- The result of the first-level opcode switch (R71). -/
inductive OpClass where
  | lui | auipc | jal | jalr | system | rtype | aluImm | load | store | btype | unrecognized
  deriving DecidableEq, Repr

/-- R71, level 1. The values 0x37 and 0x73 are the source's, the other eight are the standard RV32I
ones (PRESUMED by the spec, D11; log 9). -/
def classOf (w : Word) : OpClass :=
  match Field.opcode w with
  | 0b0110111#7 => .lui
  | 0b0010111#7 => .auipc
  | 0b1101111#7 => .jal
  | 0b1100111#7 => .jalr
  | 0b1110011#7 => .system
  | 0b0110011#7 => .rtype
  | 0b0010011#7 => .aluImm
  | 0b0000011#7 => .load
  | 0b0100011#7 => .store
  | 0b1100011#7 => .btype
  | _ => .unrecognized

/-- The immediate sign-extend multiplexer (R68). Where the format has no immediate the value is 0
(D20); no output depends on it. -/
def immMux (w : Word) : Word :=
  match classOf w with
  | .lui => Field.immU w
  | .auipc => Field.immU w
  | .jal => Field.immJ w
  | .jalr => Field.immI w
  | .load => Field.immI w
  | .aluImm => Field.immI w
  | .store => Field.immS w
  | .btype => Field.immB w
  | .rtype => 0
  | .system => 0
  | .unrecognized => 0

/-- Why a word is illegal: the level of the tree that found no arm (R181, R188). The block does not
report it (R186: no cause code); it is the decoder's own name for the rejection (log 6). -/
inductive Reject where
  /-- Level 1: the opcode is none of the ten. -/
  | opcode
  /-- Level 2: SYSTEM, neither `ecall` nor `ebreak`, and `funct3` 000 or 100 (R118). -/
  | system
  /-- Level 2: LOAD, `funct3` 011, 110 or 111 (R160). -/
  | load
  /-- Level 2: STORE, `funct3` 011 to 111 (R168). -/
  | store
  /-- Level 2: B-TYPE, `funct3` 010 or 011 (R176). -/
  | btype
  /-- Level 3: R-TYPE, `funct3` 000 or 101, `funct7` neither 0000000 nor 0100000 (R135). -/
  | rtype
  /-- Level 3: ALU-IMM, `funct3` 101, `funct7` neither 0000000 nor 0100000 (R149). -/
  | aluImm
  deriving DecidableEq, Repr

/-- R72: the two full-word matches, then the `funct3` switch. -/
def decodeSystem (w : Word) : Except Reject Instr :=
  if w = 0x00000073#32 then .ok .ecall
  else if w = 0x00100073#32 then .ok .ebreak
  else match Field.funct3 w with
    | 0b001#3 => .ok (.csrrw (Field.rd w) (Field.csr w) (Field.rs1 w))
    | 0b010#3 => .ok (.csrrs (Field.rd w) (Field.csr w) (Field.rs1 w))
    | 0b011#3 => .ok (.csrrc (Field.rd w) (Field.csr w) (Field.rs1 w))
    | 0b101#3 => .ok (.csrrwi (Field.rd w) (Field.csr w) (Field.zimm w))
    | 0b110#3 => .ok (.csrrsi (Field.rd w) (Field.csr w) (Field.zimm w))
    | 0b111#3 => .ok (.csrrci (Field.rd w) (Field.csr w) (Field.zimm w))
    | _ => .error .system

/-- R73: `funct7` is examined under `funct3` 000 and 101 only (C1, D8). -/
def decodeRType (w : Word) : Except Reject Instr :=
  match Field.funct3 w with
  | 0b000#3 => match Field.funct7 w with
    | 0b0000000#7 => .ok (.add (Field.rd w) (Field.rs1 w) (Field.rs2 w))
    | 0b0100000#7 => .ok (.sub (Field.rd w) (Field.rs1 w) (Field.rs2 w))
    | _ => .error .rtype
  | 0b001#3 => .ok (.sll (Field.rd w) (Field.rs1 w) (Field.rs2 w) (Field.funct7 w))
  | 0b010#3 => .ok (.slt (Field.rd w) (Field.rs1 w) (Field.rs2 w) (Field.funct7 w))
  | 0b011#3 => .ok (.sltu (Field.rd w) (Field.rs1 w) (Field.rs2 w) (Field.funct7 w))
  | 0b100#3 => .ok (.xor (Field.rd w) (Field.rs1 w) (Field.rs2 w) (Field.funct7 w))
  | 0b101#3 => match Field.funct7 w with
    | 0b0000000#7 => .ok (.srl (Field.rd w) (Field.rs1 w) (Field.rs2 w))
    | 0b0100000#7 => .ok (.sra (Field.rd w) (Field.rs1 w) (Field.rs2 w))
    | _ => .error .rtype
  | 0b110#3 => .ok (.or (Field.rd w) (Field.rs1 w) (Field.rs2 w) (Field.funct7 w))
  | _ => .ok (.and (Field.rd w) (Field.rs1 w) (Field.rs2 w) (Field.funct7 w))

/-- R74: `funct7` is examined under `funct3` 101 only (C1, D8). -/
def decodeAluImm (w : Word) : Except Reject Instr :=
  match Field.funct3 w with
  | 0b000#3 => .ok (.addi (Field.rd w) (Field.rs1 w) (Field.immI w))
  | 0b001#3 => .ok (.slli (Field.rd w) (Field.rs1 w) (Field.shamt w) (Field.funct7 w))
  | 0b010#3 => .ok (.slti (Field.rd w) (Field.rs1 w) (Field.immI w))
  | 0b011#3 => .ok (.sltiu (Field.rd w) (Field.rs1 w) (Field.immI w))
  | 0b100#3 => .ok (.xori (Field.rd w) (Field.rs1 w) (Field.immI w))
  | 0b101#3 => match Field.funct7 w with
    | 0b0000000#7 => .ok (.srli (Field.rd w) (Field.rs1 w) (Field.shamt w))
    | 0b0100000#7 => .ok (.srai (Field.rd w) (Field.rs1 w) (Field.shamt w))
    | _ => .error .aluImm
  | 0b110#3 => .ok (.ori (Field.rd w) (Field.rs1 w) (Field.immI w))
  | _ => .ok (.andi (Field.rd w) (Field.rs1 w) (Field.immI w))

/-- R75 -/
def decodeLoad (w : Word) : Except Reject Instr :=
  match Field.funct3 w with
  | 0b000#3 => .ok (.lb (Field.rd w) (Field.rs1 w) (Field.immI w))
  | 0b001#3 => .ok (.lh (Field.rd w) (Field.rs1 w) (Field.immI w))
  | 0b010#3 => .ok (.lw (Field.rd w) (Field.rs1 w) (Field.immI w))
  | 0b100#3 => .ok (.lbu (Field.rd w) (Field.rs1 w) (Field.immI w))
  | 0b101#3 => .ok (.lhu (Field.rd w) (Field.rs1 w) (Field.immI w))
  | _ => .error .load

/-- R76 -/
def decodeStore (w : Word) : Except Reject Instr :=
  match Field.funct3 w with
  | 0b000#3 => .ok (.sb (Field.rs2 w) (Field.rs1 w) (Field.immS w))
  | 0b001#3 => .ok (.sh (Field.rs2 w) (Field.rs1 w) (Field.immS w))
  | 0b010#3 => .ok (.sw (Field.rs2 w) (Field.rs1 w) (Field.immS w))
  | _ => .error .store

/-- R77. The offset is not yet added to the address: that is the instruction's meaning. -/
def decodeBranch (w : Word) : Except Reject Instr :=
  match Field.funct3 w with
  | 0b000#3 => .ok (.beq (Field.rs1 w) (Field.rs2 w) (Field.immB w))
  | 0b001#3 => .ok (.bne (Field.rs1 w) (Field.rs2 w) (Field.immB w))
  | 0b100#3 => .ok (.blt (Field.rs1 w) (Field.rs2 w) (Field.immB w))
  | 0b101#3 => .ok (.bge (Field.rs1 w) (Field.rs2 w) (Field.immB w))
  | 0b110#3 => .ok (.bltu (Field.rs1 w) (Field.rs2 w) (Field.immB w))
  | 0b111#3 => .ok (.bgeu (Field.rs1 w) (Field.rs2 w) (Field.immB w))
  | _ => .error .btype

/-- The decision tree (R71, R188): total on all words, rejecting by name. -/
def decode (w : Word) : Except Reject Instr :=
  match classOf w with
  | .lui => .ok (.lui (Field.rd w) (Field.imm20 w))
  | .auipc => .ok (.auipc (Field.rd w) (Field.imm20 w))
  | .jal => .ok (.jal (Field.rd w) (Field.immJ w))
  | .jalr => .ok (.jalr (Field.rd w) (Field.rs1 w) (Field.funct3 w) (Field.immI w))
  | .system => decodeSystem w
  | .rtype => decodeRType w
  | .aluImm => decodeAluImm w
  | .load => decodeLoad w
  | .store => decodeStore w
  | .btype => decodeBranch w
  | .unrecognized => .error .opcode

/-- The word is one of the recognised set (R2). -/
def recognised (w : Word) : Bool :=
  match decode w with
  | .ok _ => true
  | .error _ => false

/-- The instruction the decoder reads from the word `w`, the bits from `nbits` up being 0. -/
def decodeTableWord (nbits w : Nat) : Option Instr :=
  match decode (BitVec.ofNat 32 (w % 2 ^ nbits)) with
  | .ok i => some i
  | .error _ => none

/-! ## The encoder: the word of each format (R62), with the inverses that R63 to R67 state -/

def rType (f7 : BitVec 7) (rs2 rs1 : BitVec 5) (f3 : BitVec 3) (rd : BitVec 5) (op : BitVec 7) : Word :=
  (f7 ++ rs2 ++ rs1 ++ f3 ++ rd ++ op).cast rfl

/-- The I-type word from the 12 bits at 31:20; the CSR formats have the same shape. -/
def iType (hi : BitVec 12) (rs1 : BitVec 5) (f3 : BitVec 3) (rd : BitVec 5) (op : BitVec 7) : Word :=
  rType (hi.extractLsb' 5 7) (hi.extractLsb' 0 5) rs1 f3 rd op

def sType (imm : Word) (rs2 rs1 : BitVec 5) (f3 : BitVec 3) (op : BitVec 7) : Word :=
  rType (imm.extractLsb' 5 7) rs2 rs1 f3 (imm.extractLsb' 0 5) op

def bType (off : Word) (rs2 rs1 : BitVec 5) (f3 : BitVec 3) (op : BitVec 7) : Word :=
  rType (off.extractLsb' 12 1 ++ off.extractLsb' 5 6) rs2 rs1 f3
    (off.extractLsb' 1 4 ++ off.extractLsb' 11 1) op

def uType (imm20 : BitVec 20) (rd : BitVec 5) (op : BitVec 7) : Word := (imm20 ++ rd ++ op).cast rfl

def jType (off : Word) (rd : BitVec 5) (op : BitVec 7) : Word :=
  uType ((off.extractLsb' 20 1 ++ off.extractLsb' 1 10 ++ off.extractLsb' 11 1 ++ off.extractLsb' 12 8).cast rfl)
    rd op

/-- The word of an instruction. -/
def encode : Instr → Word
  | .lui rd imm20 => uType imm20 rd 0b0110111#7
  | .auipc rd imm20 => uType imm20 rd 0b0010111#7
  | .jal rd off => jType off rd 0b1101111#7
  | .jalr rd rs1 f3 imm => iType (imm.extractLsb' 0 12) rs1 f3 rd 0b1100111#7
  | .ecall => 0x00000073#32
  | .ebreak => 0x00100073#32
  | .csrrw rd csr rs1 => iType csr rs1 0b001#3 rd 0b1110011#7
  | .csrrs rd csr rs1 => iType csr rs1 0b010#3 rd 0b1110011#7
  | .csrrc rd csr rs1 => iType csr rs1 0b011#3 rd 0b1110011#7
  | .csrrwi rd csr zimm => iType csr zimm 0b101#3 rd 0b1110011#7
  | .csrrsi rd csr zimm => iType csr zimm 0b110#3 rd 0b1110011#7
  | .csrrci rd csr zimm => iType csr zimm 0b111#3 rd 0b1110011#7
  | .add rd rs1 rs2 => rType 0b0000000#7 rs2 rs1 0b000#3 rd 0b0110011#7
  | .sub rd rs1 rs2 => rType 0b0100000#7 rs2 rs1 0b000#3 rd 0b0110011#7
  | .sll rd rs1 rs2 f7 => rType f7 rs2 rs1 0b001#3 rd 0b0110011#7
  | .slt rd rs1 rs2 f7 => rType f7 rs2 rs1 0b010#3 rd 0b0110011#7
  | .sltu rd rs1 rs2 f7 => rType f7 rs2 rs1 0b011#3 rd 0b0110011#7
  | .xor rd rs1 rs2 f7 => rType f7 rs2 rs1 0b100#3 rd 0b0110011#7
  | .srl rd rs1 rs2 => rType 0b0000000#7 rs2 rs1 0b101#3 rd 0b0110011#7
  | .sra rd rs1 rs2 => rType 0b0100000#7 rs2 rs1 0b101#3 rd 0b0110011#7
  | .or rd rs1 rs2 f7 => rType f7 rs2 rs1 0b110#3 rd 0b0110011#7
  | .and rd rs1 rs2 f7 => rType f7 rs2 rs1 0b111#3 rd 0b0110011#7
  | .addi rd rs1 imm => iType (imm.extractLsb' 0 12) rs1 0b000#3 rd 0b0010011#7
  | .slti rd rs1 imm => iType (imm.extractLsb' 0 12) rs1 0b010#3 rd 0b0010011#7
  | .sltiu rd rs1 imm => iType (imm.extractLsb' 0 12) rs1 0b011#3 rd 0b0010011#7
  | .xori rd rs1 imm => iType (imm.extractLsb' 0 12) rs1 0b100#3 rd 0b0010011#7
  | .ori rd rs1 imm => iType (imm.extractLsb' 0 12) rs1 0b110#3 rd 0b0010011#7
  | .andi rd rs1 imm => iType (imm.extractLsb' 0 12) rs1 0b111#3 rd 0b0010011#7
  | .slli rd rs1 shamt f7 => rType f7 shamt rs1 0b001#3 rd 0b0010011#7
  | .srli rd rs1 shamt => rType 0b0000000#7 shamt rs1 0b101#3 rd 0b0010011#7
  | .srai rd rs1 shamt => rType 0b0100000#7 shamt rs1 0b101#3 rd 0b0010011#7
  | .lb rd rs1 imm => iType (imm.extractLsb' 0 12) rs1 0b000#3 rd 0b0000011#7
  | .lh rd rs1 imm => iType (imm.extractLsb' 0 12) rs1 0b001#3 rd 0b0000011#7
  | .lw rd rs1 imm => iType (imm.extractLsb' 0 12) rs1 0b010#3 rd 0b0000011#7
  | .lbu rd rs1 imm => iType (imm.extractLsb' 0 12) rs1 0b100#3 rd 0b0000011#7
  | .lhu rd rs1 imm => iType (imm.extractLsb' 0 12) rs1 0b101#3 rd 0b0000011#7
  | .sb rs2 rs1 imm => sType imm rs2 rs1 0b000#3 0b0100011#7
  | .sh rs2 rs1 imm => sType imm rs2 rs1 0b001#3 0b0100011#7
  | .sw rs2 rs1 imm => sType imm rs2 rs1 0b010#3 0b0100011#7
  | .beq rs1 rs2 off => bType off rs2 rs1 0b000#3 0b1100011#7
  | .bne rs1 rs2 off => bType off rs2 rs1 0b001#3 0b1100011#7
  | .blt rs1 rs2 off => bType off rs2 rs1 0b100#3 0b1100011#7
  | .bge rs1 rs2 off => bType off rs2 rs1 0b101#3 0b1100011#7
  | .bltu rs1 rs2 off => bType off rs2 rs1 0b110#3 0b1100011#7
  | .bgeu rs1 rs2 off => bType off rs2 rs1 0b111#3 0b1100011#7

/-! ## The opcode map as data (R99) -/

/-- One row of the map: a word belongs to it when `word AND mask = pattern`. -/
structure Row where
  name : Text
  pattern : Word
  mask : Word
  deriving DecidableEq, Repr

def Row.covers (r : Row) (w : Word) : Bool := w &&& r.mask == r.pattern

/-- The row of an instruction's mnemonic (R99's table, column by column). -/
def Instr.row : Instr → Row
  | .lui _ _ => ⟨['l', 'u', 'i'], 0x00000037#32, 0x0000007f#32⟩
  | .auipc _ _ => ⟨['a', 'u', 'i', 'p', 'c'], 0x00000017#32, 0x0000007f#32⟩
  | .jal _ _ => ⟨['j', 'a', 'l'], 0x0000006f#32, 0x0000007f#32⟩
  | .jalr _ _ _ _ => ⟨['j', 'a', 'l', 'r'], 0x00000067#32, 0x0000007f#32⟩
  | .ecall => ⟨['e', 'c', 'a', 'l', 'l'], 0x00000073#32, 0xffffffff#32⟩
  | .ebreak => ⟨['e', 'b', 'r', 'e', 'a', 'k'], 0x00100073#32, 0xffffffff#32⟩
  | .csrrw _ _ _ => ⟨['c', 's', 'r', 'r', 'w'], 0x00001073#32, 0x0000707f#32⟩
  | .csrrs _ _ _ => ⟨['c', 's', 'r', 'r', 's'], 0x00002073#32, 0x0000707f#32⟩
  | .csrrc _ _ _ => ⟨['c', 's', 'r', 'r', 'c'], 0x00003073#32, 0x0000707f#32⟩
  | .csrrwi _ _ _ => ⟨['c', 's', 'r', 'r', 'w', 'i'], 0x00005073#32, 0x0000707f#32⟩
  | .csrrsi _ _ _ => ⟨['c', 's', 'r', 'r', 's', 'i'], 0x00006073#32, 0x0000707f#32⟩
  | .csrrci _ _ _ => ⟨['c', 's', 'r', 'r', 'c', 'i'], 0x00007073#32, 0x0000707f#32⟩
  | .add _ _ _ => ⟨['a', 'd', 'd'], 0x00000033#32, 0xfe00707f#32⟩
  | .sub _ _ _ => ⟨['s', 'u', 'b'], 0x40000033#32, 0xfe00707f#32⟩
  | .sll _ _ _ _ => ⟨['s', 'l', 'l'], 0x00001033#32, 0x0000707f#32⟩
  | .slt _ _ _ _ => ⟨['s', 'l', 't'], 0x00002033#32, 0x0000707f#32⟩
  | .sltu _ _ _ _ => ⟨['s', 'l', 't', 'u'], 0x00003033#32, 0x0000707f#32⟩
  | .xor _ _ _ _ => ⟨['x', 'o', 'r'], 0x00004033#32, 0x0000707f#32⟩
  | .srl _ _ _ => ⟨['s', 'r', 'l'], 0x00005033#32, 0xfe00707f#32⟩
  | .sra _ _ _ => ⟨['s', 'r', 'a'], 0x40005033#32, 0xfe00707f#32⟩
  | .or _ _ _ _ => ⟨['o', 'r'], 0x00006033#32, 0x0000707f#32⟩
  | .and _ _ _ _ => ⟨['a', 'n', 'd'], 0x00007033#32, 0x0000707f#32⟩
  | .addi _ _ _ => ⟨['a', 'd', 'd', 'i'], 0x00000013#32, 0x0000707f#32⟩
  | .slti _ _ _ => ⟨['s', 'l', 't', 'i'], 0x00002013#32, 0x0000707f#32⟩
  | .sltiu _ _ _ => ⟨['s', 'l', 't', 'i', 'u'], 0x00003013#32, 0x0000707f#32⟩
  | .xori _ _ _ => ⟨['x', 'o', 'r', 'i'], 0x00004013#32, 0x0000707f#32⟩
  | .ori _ _ _ => ⟨['o', 'r', 'i'], 0x00006013#32, 0x0000707f#32⟩
  | .andi _ _ _ => ⟨['a', 'n', 'd', 'i'], 0x00007013#32, 0x0000707f#32⟩
  | .slli _ _ _ _ => ⟨['s', 'l', 'l', 'i'], 0x00001013#32, 0x0000707f#32⟩
  | .srli _ _ _ => ⟨['s', 'r', 'l', 'i'], 0x00005013#32, 0xfe00707f#32⟩
  | .srai _ _ _ => ⟨['s', 'r', 'a', 'i'], 0x40005013#32, 0xfe00707f#32⟩
  | .lb _ _ _ => ⟨['l', 'b'], 0x00000003#32, 0x0000707f#32⟩
  | .lh _ _ _ => ⟨['l', 'h'], 0x00001003#32, 0x0000707f#32⟩
  | .lw _ _ _ => ⟨['l', 'w'], 0x00002003#32, 0x0000707f#32⟩
  | .lbu _ _ _ => ⟨['l', 'b', 'u'], 0x00004003#32, 0x0000707f#32⟩
  | .lhu _ _ _ => ⟨['l', 'h', 'u'], 0x00005003#32, 0x0000707f#32⟩
  | .sb _ _ _ => ⟨['s', 'b'], 0x00000023#32, 0x0000707f#32⟩
  | .sh _ _ _ => ⟨['s', 'h'], 0x00001023#32, 0x0000707f#32⟩
  | .sw _ _ _ => ⟨['s', 'w'], 0x00002023#32, 0x0000707f#32⟩
  | .beq _ _ _ => ⟨['b', 'e', 'q'], 0x00000063#32, 0x0000707f#32⟩
  | .bne _ _ _ => ⟨['b', 'n', 'e'], 0x00001063#32, 0x0000707f#32⟩
  | .blt _ _ _ => ⟨['b', 'l', 't'], 0x00004063#32, 0x0000707f#32⟩
  | .bge _ _ _ => ⟨['b', 'g', 'e'], 0x00005063#32, 0x0000707f#32⟩
  | .bltu _ _ _ => ⟨['b', 'l', 't', 'u'], 0x00006063#32, 0x0000707f#32⟩
  | .bgeu _ _ _ => ⟨['b', 'g', 'e', 'u'], 0x00007063#32, 0x0000707f#32⟩

/-- One instruction of each constructor, in the table's order (its operands play no part in `row`). -/
def specimens : List Instr :=
  [Instr.lui 0 0, Instr.auipc 0 0, Instr.jal 0 0, Instr.jalr 0 0 0 0, Instr.ecall, Instr.ebreak,
   Instr.csrrw 0 0 0, Instr.csrrs 0 0 0, Instr.csrrc 0 0 0,
   Instr.csrrwi 0 0 0, Instr.csrrsi 0 0 0, Instr.csrrci 0 0 0,
   Instr.add 0 0 0, Instr.sub 0 0 0, Instr.sll 0 0 0 0, Instr.slt 0 0 0 0, Instr.sltu 0 0 0 0,
   Instr.xor 0 0 0 0, Instr.srl 0 0 0, Instr.sra 0 0 0, Instr.or 0 0 0 0, Instr.and 0 0 0 0,
   Instr.addi 0 0 0, Instr.slti 0 0 0, Instr.sltiu 0 0 0, Instr.xori 0 0 0, Instr.ori 0 0 0,
   Instr.andi 0 0 0, Instr.slli 0 0 0 0, Instr.srli 0 0 0, Instr.srai 0 0 0,
   Instr.lb 0 0 0, Instr.lh 0 0 0, Instr.lw 0 0 0, Instr.lbu 0 0 0, Instr.lhu 0 0 0,
   Instr.sb 0 0 0, Instr.sh 0 0 0, Instr.sw 0 0 0,
   Instr.beq 0 0 0, Instr.bne 0 0 0, Instr.blt 0 0 0, Instr.bge 0 0 0, Instr.bltu 0 0 0,
   Instr.bgeu 0 0 0]

/-- The complete map of R99: 45 rows. -/
def opcodeTable : List Row := specimens.map Instr.row

/-- R80: the bits of a word that neither select its instruction nor appear in its text. -/
def unexaminedBits (w : Word) : Word :=
  match classOf w with
  | .jalr => 0x00007000#32
  | .rtype => if Field.funct3 w = 0b000#3 ∨ Field.funct3 w = 0b101#3 then 0 else 0xfe000000#32
  | .aluImm => if Field.funct3 w = 0b001#3 then 0xfe000000#32 else 0
  | .lui => 0
  | .auipc => 0
  | .jal => 0
  | .system => 0
  | .load => 0
  | .store => 0
  | .btype => 0
  | .unrecognized => 0

end Sys2Proof
end

