-- ==== Sys2Proof/Config.lean ====
section
/-! DEFINITION. The two open build parameters of the block (spec/00_scope.md R9, R10; R12 says there
is no other), the spec's recommended defaults, and the one free value of the fetch collaborator. -/

namespace Sys2Proof

/-- The build parameters (R9, R10, R207: "constants of the build (or arguments of the model)"). The
machine takes them from `State.cfg`, so a statement about every state holds for every value. -/
structure Config where
  /-- `MNEMONIC_WIDTH` (R9): any natural number is legal. -/
  mnemonicWidth : Nat
  /-- `ILLEGAL_TEXT` (R10), the sentinel. -/
  illegalText : Text
  deriving DecidableEq, Repr

/-- A printable ASCII character, code 0x20 to 0x7e (R10, R15). -/
def printable (c : Char) : Bool := 32 ≤ c.toNat && c.toNat ≤ 126

/-- R10, of the sentinel's own characters: it is "a non-empty string of printable ASCII characters". The
whole of R10, with the texts it must differ from, is `Machine.LegalConfig`. -/
def Config.wf (cfg : Config) : Bool := !cfg.illegalText.isEmpty && cfg.illegalText.all printable

/-- The test that R10 calls sufficient for the sentinel to differ from every recognised line: it "does not
begin with a lower-case letter". What R10 requires is `Machine.LegalConfig`. -/
def Config.sentinelDistinct (cfg : Config) : Bool :=
  match cfg.illegalText with
  | [] => true
  | c :: _ => !('a' ≤ c && c ≤ 'z')

/-- The recommended defaults of R9 and R10. PRESUMED: the spec marks both as general knowledge
(D3, D4); log 2. Used by `State.reset` and by the tests only. -/
def Config.default : Config where
  mnemonicWidth := 8
  illegalText := "ERROR: UNIMPLEMENTED INSTRUCTION".toList

/-- FREE VALUE: the word `read32` returns at an address outside the memory (R40, R46; U3: "any
value"). It belongs to the fetch collaborator, not to the block; only `Machine/Bench.lean` reads it.
Log 13. -/
opaque Config.outOfRangeWord : Word → Word

end Sys2Proof
end

