-- ==== Sys2Proof/Machine/State.lean ====
section
/-! DEFINITION. The decoded value (R27), the state, and the ways a step can end.

The block stores nothing (R20, R31). `State` holds the block's ports (R29, R30) and its two build
parameters (R9, R10, R207): one step is one evaluation, which reads the input ports and drives the
output ports (log 1). -/

namespace Sys2Proof.Machine

/-! ## The decoded value, one constructor per renderer shape (R27) -/

inductive UpperOp where
  | lui | auipc
  deriving DecidableEq, Repr

inductive CsrRegOp where
  | csrrw | csrrs | csrrc
  deriving DecidableEq, Repr

inductive CsrImmOp where
  | csrrwi | csrrsi | csrrci
  deriving DecidableEq, Repr

inductive AluRegOp where
  | add | sub | sll | slt | sltu | xor | srl | sra | or | and
  deriving DecidableEq, Repr

inductive AluImmOp where
  | addi | slti | sltiu | xori | ori | andi
  deriving DecidableEq, Repr

inductive ShiftOp where
  | slli | srli | srai
  deriving DecidableEq, Repr

inductive LoadOp where
  | lb | lh | lw | lbu | lhu
  deriving DecidableEq, Repr

inductive StoreOp where
  | sb | sh | sw
  deriving DecidableEq, Repr

inductive BranchOp where
  | beq | bne | blt | bge | bltu | bgeu
  deriving DecidableEq, Repr

/-- `DecodedInsn` (R27). `imm` is signed; `target` is the absolute address of R105 and R170. -/
inductive DecodedInsn where
  | upper (op : UpperOp) (rd : RegIdx) (imm20 : BitVec 20)
  | jal (rd : RegIdx) (target : Word)
  | jalr (rd rs1 : RegIdx) (imm : Word)
  | csrReg (op : CsrRegOp) (rd : RegIdx) (csr : CsrIdx) (rs1 : RegIdx)
  | csrImm (op : CsrImmOp) (rd : RegIdx) (csr : CsrIdx) (zimm : BitVec 5)
  | ecall
  | ebreak
  | aluReg (op : AluRegOp) (rd rs1 rs2 : RegIdx)
  | aluImm (op : AluImmOp) (rd rs1 : RegIdx) (imm : Word)
  | shift (op : ShiftOp) (rd rs1 : RegIdx) (shamt : BitVec 5)
  | load (op : LoadOp) (rd rs1 : RegIdx) (imm : Word)
  | store (op : StoreOp) (rs2 rs1 : RegIdx) (imm : Word)
  | branch (op : BranchOp) (rs1 rs2 : RegIdx) (target : Word)
  /-- It carries no field (R27, R180). -/
  | illegal
  deriving DecidableEq, Repr

/-! ## The state -/

/-- The build parameters and the ports. `text_len` is the length of `text`, and the packed `text` port
is computed from it (`State.textLenPort`, `State.textPort`): R29 says that a list of characters of
length `text_len` "loses nothing" (log 5). -/
structure State where
  /-- Build parameters (R9, R10); no step changes them (log 2). -/
  cfg : Config
  /-- Input port: "byte address at which `word` resides" (R29, R22). -/
  address : Word
  /-- Input port: the instruction word (R29). -/
  word : Word
  /-- Output port: the line, `text_len` characters (R29, R15). -/
  text : Text
  /-- Output port: true exactly when the outcome is `Illegal` (R29). -/
  illegal : Bool
  /-- Output port (debug): the decoded value (R30). -/
  decoded : DecodedInsn
  deriving DecidableEq, Repr

/-- The faults of a step: NONE. "The block has no exceptional control path" (R185), and a failure
outcome of the model's own "must be unreachable" (R182); with no constructor it cannot be built.
Safe: nothing stops (log 6). -/
inductive Fault where
  deriving DecidableEq, Repr

/-- The refusals of a step. -/
inductive Refusal where
  /-- Raised by an arm of `exec` for an instruction that has no meaning yet. No arm raises it: every
  instruction has its meaning. Safe. -/
  | notModelled (mnemonic : String)
  deriving DecidableEq, Repr

/-- How an evaluation can end. -/
abbrev Result := Host.Outcome State Fault Refusal

/-- The state before the host has presented a pair. The block has no reset (R32, R205): the inputs are
a DESIGN CHOICE (0; U6 leaves them open; log 3), the parameters are the spec's recommended defaults
(PRESUMED, log 2), and the outputs are those of the pair (0, 0), since "from the first instant its
inputs are stable the outputs are the function" (R32; DEDUCED, log 4). -/
def State.reset : State where
  cfg := Config.default
  address := 0
  word := 0
  text := Config.default.illegalText
  illegal := true
  decoded := .illegal

end Sys2Proof.Machine
end

