-- ==== Sys2Proof/Machine/Flags.lean ====
section
/-! DEFINITION. The block has no status flag (R23) and no instruction writes one. The one single-bit
output is `illegal` (R29). -/

namespace Sys2Proof.Machine

/-- The `illegal` port: "1 exactly when the outcome is `Illegal`" (R29, R30, D19). -/
def illegalFlag : DecodedInsn → Bool
  | .illegal => true
  | .upper _ _ _ => false
  | .jal _ _ => false
  | .jalr _ _ _ => false
  | .csrReg _ _ _ _ => false
  | .csrImm _ _ _ _ => false
  | .ecall => false
  | .ebreak => false
  | .aluReg _ _ _ _ => false
  | .aluImm _ _ _ _ => false
  | .shift _ _ _ _ => false
  | .load _ _ _ _ => false
  | .store _ _ _ _ => false
  | .branch _ _ _ _ => false

end Sys2Proof.Machine
end

