-- ==== Sys2Proof/Machine/Operands.lean ====
section
/-! DEFINITION. The operand formatter (R81 to R86), with the absolute target of R105 and R170, and the
length bound of a line (R11). -/

namespace Sys2Proof.Machine

/-! ## Numerals -/

/-- The character of a digit, lower case (R83). -/
def digitChar (d : Nat) : Char :=
  ['0', '1', '2', '3', '4', '5', '6', '7', '8', '9', 'a', 'b', 'c', 'd', 'e', 'f'].getD d '0'

/-- The decimal digits of `n`, most significant first, at most `fuel` of them after the first. -/
def decDigits : Nat → Nat → Text
  | 0, n => [digitChar (n % 10)]
  | fuel + 1, n => if n < 10 then [digitChar n] else decDigits fuel (n / 10) ++ [digitChar (n % 10)]

/-- `decu` (R81): "the decimal numeral of the natural number `n` with no leading zeros". -/
def decu (n : Nat) : Text := decDigits n n

/-- `dec` (R82): `-` before a negative value, no plus sign, no padding (D6). -/
def dec (v : Int) : Text := if v < 0 then '-' :: decu (-v).toNat else decu v.toNat

/-- The low `n` hexadecimal digits of `v`, most significant first. -/
def hexDigits : Nat → Nat → Text
  | 0, _ => []
  | n + 1, v => hexDigits n (v / 16) ++ [digitChar (v % 16)]

/-- `hex_n` (R83): `0x` and exactly `n` digits of `v mod 16^n`. The block uses `n` = 3, 5 and 8. -/
def hexN (n v : Nat) : Text := '0' :: 'x' :: hexDigits n (v % 16 ^ n)

/-! ## Operands -/

/-- `reg` (R81): `x<index>`, the field value verbatim. -/
def reg (i : RegIdx) : Text := 'x' :: decu i.toNat

/-- `disp` (R86): the signed displacement, then the base in parentheses. -/
def disp (imm : Word) (base : RegIdx) : Text := dec imm.toInt ++ '(' :: reg base ++ [')']

/-- `pad` (R84): left-justified, never truncated; the pad character is the space (D3). -/
def pad (cfg : Config) (m : Text) : Text := m ++ List.replicate (cfg.mnemonicWidth - m.length) ' '

/-- R85: a recognised line of two operands. -/
def line2 (cfg : Config) (m op1 op2 : Text) : Text := pad cfg m ++ op1 ++ ',' :: op2

/-- R85: a recognised line of three operands. -/
def line3 (cfg : Config) (m op1 op2 op3 : Text) : Text := pad cfg m ++ op1 ++ ',' :: op2 ++ ',' :: op3

/-- R105, R170: the absolute target, `(address + offset) mod 2^32`; it wraps silently (R150). The
address is that of the instruction itself (R107, R177), and no alignment is checked (R43, R44). -/
def target (address off : Word) : Word := address + off

/-- `TEXT_MAX` (R11, C7). -/
def textMax (cfg : Config) : Nat := max (max cfg.mnemonicWidth 4 + 18) cfg.illegalText.length

end Sys2Proof.Machine
end

