-- ==== Sys2Proof/Machine/Render.lean ====
section
/-! DEFINITION. The renderer: one template per instruction shape (R87 to R97). -/

namespace Sys2Proof.Machine

/-! ## The mnemonics, in lower case (R84) -/

def upperName : UpperOp → Text
  | .lui => ['l', 'u', 'i']
  | .auipc => ['a', 'u', 'i', 'p', 'c']

def csrRegName : CsrRegOp → Text
  | .csrrw => ['c', 's', 'r', 'r', 'w']
  | .csrrs => ['c', 's', 'r', 'r', 's']
  | .csrrc => ['c', 's', 'r', 'r', 'c']

def csrImmName : CsrImmOp → Text
  | .csrrwi => ['c', 's', 'r', 'r', 'w', 'i']
  | .csrrsi => ['c', 's', 'r', 'r', 's', 'i']
  | .csrrci => ['c', 's', 'r', 'r', 'c', 'i']

def aluRegName : AluRegOp → Text
  | .add => ['a', 'd', 'd']
  | .sub => ['s', 'u', 'b']
  | .sll => ['s', 'l', 'l']
  | .slt => ['s', 'l', 't']
  | .sltu => ['s', 'l', 't', 'u']
  | .xor => ['x', 'o', 'r']
  | .srl => ['s', 'r', 'l']
  | .sra => ['s', 'r', 'a']
  | .or => ['o', 'r']
  | .and => ['a', 'n', 'd']

def aluImmName : AluImmOp → Text
  | .addi => ['a', 'd', 'd', 'i']
  | .slti => ['s', 'l', 't', 'i']
  | .sltiu => ['s', 'l', 't', 'i', 'u']
  | .xori => ['x', 'o', 'r', 'i']
  | .ori => ['o', 'r', 'i']
  | .andi => ['a', 'n', 'd', 'i']

def shiftName : ShiftOp → Text
  | .slli => ['s', 'l', 'l', 'i']
  | .srli => ['s', 'r', 'l', 'i']
  | .srai => ['s', 'r', 'a', 'i']

def loadName : LoadOp → Text
  | .lb => ['l', 'b']
  | .lh => ['l', 'h']
  | .lw => ['l', 'w']
  | .lbu => ['l', 'b', 'u']
  | .lhu => ['l', 'h', 'u']

def storeName : StoreOp → Text
  | .sb => ['s', 'b']
  | .sh => ['s', 'h']
  | .sw => ['s', 'w']

def branchName : BranchOp → Text
  | .beq => ['b', 'e', 'q']
  | .bne => ['b', 'n', 'e']
  | .blt => ['b', 'l', 't']
  | .bge => ['b', 'g', 'e']
  | .bltu => ['b', 'l', 't', 'u']
  | .bgeu => ['b', 'g', 'e', 'u']

/-! ## The templates -/

/-- R89: the 20-bit field, not the 32-bit immediate. -/
def renderUpper (cfg : Config) (op : UpperOp) (rd : RegIdx) (imm20 : BitVec 20) : Text :=
  line2 cfg (upperName op) (reg rd) (hexN 5 imm20.toNat)

/-- R90 -/
def renderJal (cfg : Config) (rd : RegIdx) (tgt : Word) : Text :=
  line2 cfg ['j', 'a', 'l'] (reg rd) (hexN 8 tgt.toNat)

/-- R92 -/
def renderJalr (cfg : Config) (rd rs1 : RegIdx) (imm : Word) : Text :=
  line2 cfg ['j', 'a', 'l', 'r'] (reg rd) (disp imm rs1)

/-- R96 -/
def renderCsrReg (cfg : Config) (op : CsrRegOp) (rd : RegIdx) (csr : CsrIdx) (rs1 : RegIdx) : Text :=
  line3 cfg (csrRegName op) (reg rd) (hexN 3 csr.toNat) (reg rs1)

/-- R96: the immediate is a bare unsigned decimal. -/
def renderCsrImm (cfg : Config) (op : CsrImmOp) (rd : RegIdx) (csr : CsrIdx) (zimm : BitVec 5) : Text :=
  line3 cfg (csrImmName op) (reg rd) (hexN 3 csr.toNat) (decu zimm.toNat)

/-- R93 -/
def renderAluReg (cfg : Config) (op : AluRegOp) (rd rs1 rs2 : RegIdx) : Text :=
  line3 cfg (aluRegName op) (reg rd) (reg rs1) (reg rs2)

/-- R91: the immediate is a signed decimal for every one of the six. -/
def renderAluImm (cfg : Config) (op : AluImmOp) (rd rs1 : RegIdx) (imm : Word) : Text :=
  line3 cfg (aluImmName op) (reg rd) (reg rs1) (dec imm.toInt)

/-- R91 -/
def renderShift (cfg : Config) (op : ShiftOp) (rd rs1 : RegIdx) (shamt : BitVec 5) : Text :=
  line3 cfg (shiftName op) (reg rd) (reg rs1) (decu shamt.toNat)

/-- R92 -/
def renderLoad (cfg : Config) (op : LoadOp) (rd rs1 : RegIdx) (imm : Word) : Text :=
  line2 cfg (loadName op) (reg rd) (disp imm rs1)

/-- R95: the stored register first, then displacement and base. -/
def renderStore (cfg : Config) (op : StoreOp) (rs2 rs1 : RegIdx) (imm : Word) : Text :=
  line2 cfg (storeName op) (reg rs2) (disp imm rs1)

/-- R94 -/
def renderBranch (cfg : Config) (op : BranchOp) (rs1 rs2 : RegIdx) (tgt : Word) : Text :=
  line3 cfg (branchName op) (reg rs1) (reg rs2) (hexN 8 tgt.toNat)

/-- R97: the zero-operand instructions are not padded. -/
def renderEcall : Text := ['e', 'c', 'a', 'l', 'l']

/-- R97 -/
def renderEbreak : Text := ['e', 'b', 'r', 'e', 'a', 'k']

/-- `render` (R87). -/
def render (cfg : Config) : DecodedInsn → Text
  | .upper op rd imm20 => renderUpper cfg op rd imm20
  | .jal rd tgt => renderJal cfg rd tgt
  | .jalr rd rs1 imm => renderJalr cfg rd rs1 imm
  | .csrReg op rd csr rs1 => renderCsrReg cfg op rd csr rs1
  | .csrImm op rd csr zimm => renderCsrImm cfg op rd csr zimm
  | .ecall => renderEcall
  | .ebreak => renderEbreak
  | .aluReg op rd rs1 rs2 => renderAluReg cfg op rd rs1 rs2
  | .aluImm op rd rs1 imm => renderAluImm cfg op rd rs1 imm
  | .shift op rd rs1 shamt => renderShift cfg op rd rs1 shamt
  | .load op rd rs1 imm => renderLoad cfg op rd rs1 imm
  | .store op rs2 rs1 imm => renderStore cfg op rs2 rs1 imm
  | .branch op rs1 rs2 tgt => renderBranch cfg op rs1 rs2 tgt
  | .illegal => cfg.illegalText

end Sys2Proof.Machine
end

