-- ==== Sys2Proof/Machine/Ops.lean ====
section
/-! DEFINITION. The named operations on the state: presenting a pair, driving the outputs, the illegal
outcome, and the ports as bit vectors. -/

namespace Sys2Proof.Machine

/-- What a host can do to the block (R211): present a pair. The outputs are not yet evaluated. -/
def State.present (s : State) (address word : Word) : State := { s with address, word }

/-- An evaluation drives all outputs from the decoded value (R30: `text = render(decoded)` and
`illegal = (decoded = Illegal)`). The inputs and the parameters are left as they are. -/
def State.drive (s : State) (d : DecodedInsn) : State :=
  { s with text := render s.cfg d, illegal := illegalFlag d, decoded := d }

/-- The one error outcome (R180, R186), the block's whole answer to a word it does not recognise: the
sentinel, `illegal` = 1, and no payload. It stands where a processor would take an exception; the
block has no trap entry and no return from one (R190, R191): nothing is saved or redirected. -/
def State.takeIllegal (s : State) : State := s.drive .illegal

/-! ## The ports as bit vectors (R29) -/

/-- `text_len` is `ceil(log2(TEXT_MAX + 1))` bits wide (R29). -/
def textLenWidth (cfg : Config) : Nat := Nat.log2 (textMax cfg) + 1

/-- The `text_len` port. -/
def State.textLenPort (s : State) : BitVec (textLenWidth s.cfg) := BitVec.ofNat _ s.text.length

/-- A character as one byte: its ASCII code (R15, D2). -/
def asciiByte (c : Char) : Byte := BitVec.ofNat 8 c.toNat

/-- The number whose byte `k` is character `k` (R29, R41: character 0 in the low byte). -/
def packText : Text → Nat
  | [] => 0
  | c :: cs => (asciiByte c).toNat + 256 * packText cs

/-- The `text` port, `8 * TEXT_MAX` bits, zero bytes from `text_len` on (R29). -/
def State.textPort (s : State) : BitVec (8 * textMax s.cfg) := BitVec.ofNat _ (packText s.text)

end Sys2Proof.Machine
end

