-- ==== Sys2Proof/Machine/AluImmediate.lean ====
section
/-! DEFINITION. Register-immediate ALU instructions (spec/44_alu_immediate.md). -/

namespace Sys2Proof.Machine

/-- R140. -/
def execAddi (rd rs1 : RegIdx) (imm : Word) (s : State) : Result :=
  .next (s.drive (.aluImm .addi rd rs1 imm))

/-- R141. -/
def execSlti (rd rs1 : RegIdx) (imm : Word) (s : State) : Result :=
  .next (s.drive (.aluImm .slti rd rs1 imm))

/-- R142. -/
def execSltiu (rd rs1 : RegIdx) (imm : Word) (s : State) : Result :=
  .next (s.drive (.aluImm .sltiu rd rs1 imm))

/-- R143. -/
def execXori (rd rs1 : RegIdx) (imm : Word) (s : State) : Result :=
  .next (s.drive (.aluImm .xori rd rs1 imm))

/-- R144. -/
def execOri (rd rs1 : RegIdx) (imm : Word) (s : State) : Result :=
  .next (s.drive (.aluImm .ori rd rs1 imm))

/-- R145. -/
def execAndi (rd rs1 : RegIdx) (imm : Word) (s : State) : Result :=
  .next (s.drive (.aluImm .andi rd rs1 imm))

/-- R146. Bits 31:25 are not examined (D8). -/
def execSlli (rd rs1 : RegIdx) (shamt : BitVec 5) (s : State) : Result :=
  .next (s.drive (.shift .slli rd rs1 shamt))

/-- R147. -/
def execSrli (rd rs1 : RegIdx) (shamt : BitVec 5) (s : State) : Result :=
  .next (s.drive (.shift .srli rd rs1 shamt))

/-- R148. -/
def execSrai (rd rs1 : RegIdx) (shamt : BitVec 5) (s : State) : Result :=
  .next (s.drive (.shift .srai rd rs1 shamt))

end Sys2Proof.Machine
end

