-- ==== Sys2Proof/Machine/AluRegister.lean ====
section
/-! DEFINITION. Register-register ALU instructions (spec/43_alu_register.md). Nothing is computed; the
register names are rendered. -/

namespace Sys2Proof.Machine

/-- R125. -/
def execAdd (rd rs1 rs2 : RegIdx) (s : State) : Result :=
  .next (s.drive (.aluReg .add rd rs1 rs2))

/-- R126. -/
def execSub (rd rs1 rs2 : RegIdx) (s : State) : Result :=
  .next (s.drive (.aluReg .sub rd rs1 rs2))

/-- R127. `funct7` is not examined (D8). -/
def execSll (rd rs1 rs2 : RegIdx) (s : State) : Result :=
  .next (s.drive (.aluReg .sll rd rs1 rs2))

/-- R128. `funct7` is not examined (D8). -/
def execSlt (rd rs1 rs2 : RegIdx) (s : State) : Result :=
  .next (s.drive (.aluReg .slt rd rs1 rs2))

/-- R129. `funct7` is not examined (D8). -/
def execSltu (rd rs1 rs2 : RegIdx) (s : State) : Result :=
  .next (s.drive (.aluReg .sltu rd rs1 rs2))

/-- R130. `funct7` is not examined (D8). -/
def execXor (rd rs1 rs2 : RegIdx) (s : State) : Result :=
  .next (s.drive (.aluReg .xor rd rs1 rs2))

/-- R131. -/
def execSrl (rd rs1 rs2 : RegIdx) (s : State) : Result :=
  .next (s.drive (.aluReg .srl rd rs1 rs2))

/-- R132. -/
def execSra (rd rs1 rs2 : RegIdx) (s : State) : Result :=
  .next (s.drive (.aluReg .sra rd rs1 rs2))

/-- R133. `funct7` is not examined (D8). -/
def execOr (rd rs1 rs2 : RegIdx) (s : State) : Result :=
  .next (s.drive (.aluReg .or rd rs1 rs2))

/-- R134. `funct7` is not examined (D8). -/
def execAnd (rd rs1 rs2 : RegIdx) (s : State) : Result :=
  .next (s.drive (.aluReg .and rd rs1 rs2))

end Sys2Proof.Machine
end

