-- ==== Sys2Proof/Machine/Branches.lean ====
section
/-! DEFINITION. Conditional branches (spec/47_branches.md). -/

namespace Sys2Proof.Machine

/-- R170: no comparison is made; the absolute target is rendered. -/
def execBeq (rs1 rs2 : RegIdx) (off : Word) (s : State) : Result :=
  .next (s.drive (.branch .beq rs1 rs2 (target s.address off)))

/-- R171: no comparison is made; the absolute target is rendered. -/
def execBne (rs1 rs2 : RegIdx) (off : Word) (s : State) : Result :=
  .next (s.drive (.branch .bne rs1 rs2 (target s.address off)))

/-- R172: no comparison is made; the absolute target is rendered. -/
def execBlt (rs1 rs2 : RegIdx) (off : Word) (s : State) : Result :=
  .next (s.drive (.branch .blt rs1 rs2 (target s.address off)))

/-- R173: no comparison is made; the absolute target is rendered. -/
def execBge (rs1 rs2 : RegIdx) (off : Word) (s : State) : Result :=
  .next (s.drive (.branch .bge rs1 rs2 (target s.address off)))

/-- R174: no comparison is made; the absolute target is rendered. -/
def execBltu (rs1 rs2 : RegIdx) (off : Word) (s : State) : Result :=
  .next (s.drive (.branch .bltu rs1 rs2 (target s.address off)))

/-- R175: no comparison is made; the absolute target is rendered. -/
def execBgeu (rs1 rs2 : RegIdx) (off : Word) (s : State) : Result :=
  .next (s.drive (.branch .bgeu rs1 rs2 (target s.address off)))

end Sys2Proof.Machine
end

