-- ==== Sys2Proof/Machine/Jumps.lean ====
section
/-! DEFINITION. Jumps (spec/41_jumps.md). The block transfers no control (R107). -/

namespace Sys2Proof.Machine

/-- R105: the absolute target, not the offset. -/
def execJal (rd : RegIdx) (off : Word) (s : State) : Result :=
  .next (s.drive (.jal rd (target s.address off)))

/-- R106: the raw signed displacement; `address` and `funct3` are not read (D9). -/
def execJalr (rd rs1 : RegIdx) (imm : Word) (s : State) : Result :=
  .next (s.drive (.jalr rd rs1 imm))

end Sys2Proof.Machine
end

