-- ==== Sys2Proof/Machine/Loads.lean ====
section
/-! DEFINITION. Loads (spec/45_loads.md). No memory is read. -/

namespace Sys2Proof.Machine

/-- R155. -/
def execLb (rd rs1 : RegIdx) (imm : Word) (s : State) : Result :=
  .next (s.drive (.load .lb rd rs1 imm))

/-- R156. -/
def execLh (rd rs1 : RegIdx) (imm : Word) (s : State) : Result :=
  .next (s.drive (.load .lh rd rs1 imm))

/-- R157. -/
def execLw (rd rs1 : RegIdx) (imm : Word) (s : State) : Result :=
  .next (s.drive (.load .lw rd rs1 imm))

/-- R158. -/
def execLbu (rd rs1 : RegIdx) (imm : Word) (s : State) : Result :=
  .next (s.drive (.load .lbu rd rs1 imm))

/-- R159. -/
def execLhu (rd rs1 : RegIdx) (imm : Word) (s : State) : Result :=
  .next (s.drive (.load .lhu rd rs1 imm))

end Sys2Proof.Machine
end

