-- ==== Sys2Proof/Machine/Stores.lean ====
section
/-! DEFINITION. Stores (spec/46_stores.md). No memory is written. -/

namespace Sys2Proof.Machine

/-- R165. -/
def execSb (rs2 rs1 : RegIdx) (imm : Word) (s : State) : Result :=
  .next (s.drive (.store .sb rs2 rs1 imm))

/-- R166. -/
def execSh (rs2 rs1 : RegIdx) (imm : Word) (s : State) : Result :=
  .next (s.drive (.store .sh rs2 rs1 imm))

/-- R167. -/
def execSw (rs2 rs1 : RegIdx) (imm : Word) (s : State) : Result :=
  .next (s.drive (.store .sw rs2 rs1 imm))

end Sys2Proof.Machine
end

