-- ==== Sys2Proof/Machine/System.lean ====
section
/-! DEFINITION. SYSTEM instructions (spec/42_system.md). -/

namespace Sys2Proof.Machine

/-- R110: the mnemonic alone. The block raises no exception here (R192). -/
def execEcall (s : State) : Result :=
  .next (s.drive .ecall)

/-- R111: the mnemonic alone. The block raises no exception here (R192). -/
def execEbreak (s : State) : Result :=
  .next (s.drive .ebreak)

/-- R112. No CSR is read, written or checked (R24, R119). -/
def execCsrrw (rd : RegIdx) (csr : CsrIdx) (rs1 : RegIdx) (s : State) : Result :=
  .next (s.drive (.csrReg .csrrw rd csr rs1))

/-- R113. No CSR is read, written or checked (R24, R119). -/
def execCsrrs (rd : RegIdx) (csr : CsrIdx) (rs1 : RegIdx) (s : State) : Result :=
  .next (s.drive (.csrReg .csrrs rd csr rs1))

/-- R114. No CSR is read, written or checked (R24, R119). -/
def execCsrrc (rd : RegIdx) (csr : CsrIdx) (rs1 : RegIdx) (s : State) : Result :=
  .next (s.drive (.csrReg .csrrc rd csr rs1))

/-- R115: `zimm` is a number, not a register (R70). -/
def execCsrrwi (rd : RegIdx) (csr : CsrIdx) (zimm : BitVec 5) (s : State) : Result :=
  .next (s.drive (.csrImm .csrrwi rd csr zimm))

/-- R116: `zimm` is a number, not a register (R70). -/
def execCsrrsi (rd : RegIdx) (csr : CsrIdx) (zimm : BitVec 5) (s : State) : Result :=
  .next (s.drive (.csrImm .csrrsi rd csr zimm))

/-- R117: `zimm` is a number, not a register (R70). -/
def execCsrrci (rd : RegIdx) (csr : CsrIdx) (zimm : BitVec 5) (s : State) : Result :=
  .next (s.drive (.csrImm .csrrci rd csr zimm))

end Sys2Proof.Machine
end

