-- ==== Sys2Proof/Machine/UpperImmediate.lean ====
section
/-! DEFINITION. Upper-immediate instructions (spec/40_upper_immediate.md). -/

namespace Sys2Proof.Machine

/-- R100. `address` is not read. -/
def execLui (rd : RegIdx) (imm20 : BitVec 20) (s : State) : Result :=
  .next (s.drive (.upper .lui rd imm20))

/-- R101. `address` is not read. The field is printed, not `address + imm_u`. -/
def execAuipc (rd : RegIdx) (imm20 : BitVec 20) (s : State) : Result :=
  .next (s.drive (.upper .auipc rd imm20))

end Sys2Proof.Machine
end

