-- ==== Sys2Proof/Machine/Step.lean ====
section
/-! DEFINITION. One step: one evaluation of the block for the pair on its input ports (R210). -/

namespace Sys2Proof.Machine

/-- The word on the input port is decoded; a recognised word has its instruction's meaning, every other
word the illegal outcome (R180). Both are next states: the block never stops (R182, R185). -/
def step (s : State) : Host.Outcome State Fault Refusal :=
  match decode s.word with
  | .ok i => exec i s
  | .error _ => .next s.takeIllegal

/-- The block fetches nothing (R205): its next instruction is the word on its input port, which the
host presents (R211). Log 14. -/
def State.withFetchWord (s : State) (nbits w : Nat) : State :=
  { s with word := BitVec.ofNat 32 (w % 2 ^ nbits) }

end Sys2Proof.Machine
end

