-- ==== Sys2Proof/Machine/Bench.lean ====
section
/-! DEFINITION. The host's side, outside the block (R5, R211): the contract of the fetch collaborator
`read32` (R40), a sequence of evaluations, and the listing of a memory image. The block itself has no
memory (R26); nothing here is reached from `step` (logs 13, 16 to 20). -/

namespace Sys2Proof.Machine

/-- The collaborator's byte memory: the listed (address, byte) cells. An unlisted address is outside
the memory and has no byte; which addresses are inside is the collaborator's (R46, U2). -/
abbrev Memory := List Host.Cell

/-- The cells from address `lo` on, addresses strictly rising and below 2^32 (R26). -/
def Memory.risingFrom : Nat → Memory → Bool
  | _, [] => true
  | lo, c :: m => lo ≤ c.1 && c.1 < 2 ^ 32 && Memory.risingFrom (c.1 + 1) m

/-- The canonical form. An unlisted address reads as no byte, so every listed cell is needed. -/
def Memory.wf (m : Memory) : Bool := Memory.risingFrom 0 m

def Memory.readByte : Memory → Word → Option Byte
  | [], _ => none
  | c :: m, a => if c.1 = a.toNat then some c.2 else Memory.readByte m a

/-- A write of the collaborator's memory. DESIGN CHOICE (log 17): every later `readByte` and `read32` sees
the written byte at once; whether `read32` sees earlier stores is left to the collaborator (R51).
DESIGN CHOICE (log 19): a write at an address outside the memory takes the address into it; the extent of
the memory and what becomes of an access outside it are left to the collaborator (R46, U2). -/
def Memory.writeByte : Memory → Word → Byte → Memory
  | [], a, b => [(a.toNat, b)]
  | c :: m, a, b =>
    if a.toNat < c.1 then (a.toNat, b) :: c :: m
    else if c.1 = a.toNat then (a.toNat, b) :: m
    else c :: Memory.writeByte m a b

/-- An image placed at `a`, byte after byte by `writeByte`: the memory then holds these addresses too,
and they wrap at 2^32 (log 19). -/
def Memory.load : Memory → Word → List Byte → Memory
  | m, _, [] => m
  | m, a, b :: bs => Memory.load (m.writeByte a b) (a + 1) bs

/-- R40, D23: little-endian, `word = b3 ++ b2 ++ b1 ++ b0`. -/
def wordOfBytes (b0 b1 b2 b3 : Byte) : Word := b3 ++ b2 ++ b1 ++ b0

/-- `read32` (R40): a word for any address; where a byte is outside the memory, any value (U3).
DESIGN CHOICE (log 16): a misaligned address is accepted like any other and gives the four bytes from it
on; R43 and N15 say that the source does not say. DESIGN CHOICE (log 18): the four bytes are read at once
and a read changes nothing, on which the source is silent too (R45). -/
def Memory.read32 (m : Memory) (a : Word) : Word :=
  match m.readByte a, m.readByte (a + 1), m.readByte (a + 2), m.readByte (a + 3) with
  | some b0, some b1, some b2, some b3 => wordOfBytes b0 b1 b2 b3
  | _, _, _, _ => Config.outOfRangeWord a

/-- What the host collects of one evaluation: the line and the `illegal` flag. -/
abbrev Line := Text × Bool

/-- The host presents the pairs one after the other and collects a line for each (R211). DESIGN CHOICE
(log 20): on the sentinel the bench collects its line like any other and goes on to the next pair; what to
do on the sentinel (halt, skip or report) is the host's (R190, R211). -/
def evaluate : State → List (Word × Word) → Host.Outcome (List Line × State) Fault Refusal
  | s, [] => .next ([], s)
  | s, p :: ps =>
    match step (s.present p.1 p.2) with
    | .fault r => .fault r
    | .refused r => .refused r
    | .next t =>
      match evaluate t ps with
      | .fault r => .fault r
      | .refused r => .refused r
      | .next (lines, u) => .next ((t.text, t.illegal) :: lines, u)

/-- The pairs of a listing: `n` words from `a`, "stepping `address` by 4" (R211). "The host's address
counter wraps from `0xfffffffc` to `0x00000000`" (spec/95_test_vectors.md, program P4). That every word is
read from the one memory `m` is log 18. -/
def listingPairs (m : Memory) : Nat → Word → List (Word × Word)
  | 0, _ => []
  | n + 1, a => (a, m.read32 a) :: listingPairs m n (a + 4)

/-- The disassembly listing of `n` words of an image (R211). -/
def listing (m : Memory) (n : Nat) (a : Word) (s : State) :
    Host.Outcome (List Line × State) Fault Refusal :=
  evaluate s (listingPairs m n a)

end Sys2Proof.Machine
end

