-- ==== Sys2Proof/Machine/Classify.lean ====
section
/-! DEFINITION. The spec's own one-line form of the block: `decode(address, word) =
render(classify(address, word))` (R16), with `classify` written from R71 to R77 as they stand there,
apart from the instructions of `Syntax` and from `exec`. `step` is the machine; this is the function it
has to equal, and statements are made with both. -/

namespace Sys2Proof.Machine

/-- R72 -/
def classifySystem (w : Word) : DecodedInsn :=
  if w = 0x00000073#32 then .ecall
  else if w = 0x00100073#32 then .ebreak
  else match Field.funct3 w with
    | 0b001#3 => .csrReg .csrrw (Field.rd w) (Field.csr w) (Field.rs1 w)
    | 0b010#3 => .csrReg .csrrs (Field.rd w) (Field.csr w) (Field.rs1 w)
    | 0b011#3 => .csrReg .csrrc (Field.rd w) (Field.csr w) (Field.rs1 w)
    | 0b101#3 => .csrImm .csrrwi (Field.rd w) (Field.csr w) (Field.zimm w)
    | 0b110#3 => .csrImm .csrrsi (Field.rd w) (Field.csr w) (Field.zimm w)
    | 0b111#3 => .csrImm .csrrci (Field.rd w) (Field.csr w) (Field.zimm w)
    | _ => .illegal

/-- R73 -/
def classifyRType (w : Word) : DecodedInsn :=
  let f op := .aluReg op (Field.rd w) (Field.rs1 w) (Field.rs2 w)
  match Field.funct3 w with
  | 0b000#3 =>
    if Field.funct7 w = 0b0000000#7 then f .add
    else if Field.funct7 w = 0b0100000#7 then f .sub
    else .illegal
  | 0b001#3 => f .sll
  | 0b010#3 => f .slt
  | 0b011#3 => f .sltu
  | 0b100#3 => f .xor
  | 0b101#3 =>
    if Field.funct7 w = 0b0000000#7 then f .srl
    else if Field.funct7 w = 0b0100000#7 then f .sra
    else .illegal
  | 0b110#3 => f .or
  | _ => f .and

/-- R74 -/
def classifyAluImm (w : Word) : DecodedInsn :=
  let g op := .aluImm op (Field.rd w) (Field.rs1 w) (Field.immI w)
  let h op := .shift op (Field.rd w) (Field.rs1 w) (Field.shamt w)
  match Field.funct3 w with
  | 0b000#3 => g .addi
  | 0b001#3 => h .slli
  | 0b010#3 => g .slti
  | 0b011#3 => g .sltiu
  | 0b100#3 => g .xori
  | 0b101#3 =>
    if Field.funct7 w = 0b0000000#7 then h .srli
    else if Field.funct7 w = 0b0100000#7 then h .srai
    else .illegal
  | 0b110#3 => g .ori
  | _ => g .andi

/-- R75 -/
def classifyLoad (w : Word) : DecodedInsn :=
  let l op := .load op (Field.rd w) (Field.rs1 w) (Field.immI w)
  match Field.funct3 w with
  | 0b000#3 => l .lb
  | 0b001#3 => l .lh
  | 0b010#3 => l .lw
  | 0b100#3 => l .lbu
  | 0b101#3 => l .lhu
  | _ => .illegal

/-- R76 -/
def classifyStore (w : Word) : DecodedInsn :=
  let st op := .store op (Field.rs2 w) (Field.rs1 w) (Field.immS w)
  match Field.funct3 w with
  | 0b000#3 => st .sb
  | 0b001#3 => st .sh
  | 0b010#3 => st .sw
  | _ => .illegal

/-- R77 -/
def classifyBranch (address w : Word) : DecodedInsn :=
  let b op := .branch op (Field.rs1 w) (Field.rs2 w) (address + Field.immB w)
  match Field.funct3 w with
  | 0b000#3 => b .beq
  | 0b001#3 => b .bne
  | 0b100#3 => b .blt
  | 0b101#3 => b .bge
  | 0b110#3 => b .bltu
  | 0b111#3 => b .bgeu
  | _ => .illegal

/-- `classify(address, word)` (R71). -/
def classify (address w : Word) : DecodedInsn :=
  match Field.opcode w with
  | 0b0110111#7 => .upper .lui (Field.rd w) (Field.imm20 w)
  | 0b0010111#7 => .upper .auipc (Field.rd w) (Field.imm20 w)
  | 0b1101111#7 => .jal (Field.rd w) (address + Field.immJ w)
  | 0b1100111#7 => .jalr (Field.rd w) (Field.rs1 w) (Field.immI w)
  | 0b1110011#7 => classifySystem w
  | 0b0110011#7 => classifyRType w
  | 0b0010011#7 => classifyAluImm w
  | 0b0000011#7 => classifyLoad w
  | 0b0100011#7 => classifyStore w
  | 0b1100011#7 => classifyBranch address w
  | _ => .illegal

/-- `decode(address, word) -> text` (R16, R87). -/
def decodeText (cfg : Config) (address w : Word) : Text := render cfg (classify address w)

/-- R10 (D4), whole: the sentinel is non-empty and printable, and it differs "from every text the 45
recognised mnemonics can render". It is the same text for every word, since it is a parameter. -/
def LegalConfig (cfg : Config) : Prop :=
  cfg.wf = true ∧ ∀ address w : Word, classify address w ≠ .illegal →
    decodeText cfg address w ≠ cfg.illegalText

end Sys2Proof.Machine
end

