-- ==== Sys2Proof/Safety.lean ====
section
/-! DEFINITION. What a safe state and a safe run of the block are, in the terms statements use. -/

namespace Sys2Proof.Machine

/-- The outputs are the function of the inputs that the spec gives (R16, R30, R32). -/
abbrev Settled (s : State) : Prop :=
  s.decoded = classify s.address s.word ∧ s.text = render s.cfg s.decoded ∧
    s.illegal = illegalFlag s.decoded

/-- R27: "Every `imm` above holds a value in `-2048..2047`". -/
def immInRange : DecodedInsn → Bool
  | .jalr _ _ imm => fitsImm12 imm
  | .aluImm _ _ _ imm => fitsImm12 imm
  | .load _ _ _ imm => fitsImm12 imm
  | .store _ _ _ imm => fitsImm12 imm
  | .upper _ _ _ => true
  | .jal _ _ => true
  | .csrReg _ _ _ _ => true
  | .csrImm _ _ _ _ => true
  | .ecall => true
  | .ebreak => true
  | .aluReg _ _ _ _ => true
  | .shift _ _ _ _ => true
  | .branch _ _ _ _ => true
  | .illegal => true

/-- A settled state whose sentinel is non-empty and printable (R10): its line is non-empty, at most `TEXT_MAX` long (R11, R182),
of printable characters on one line (R15), and its decoded immediate is in range (R27). -/
abbrev Inv (s : State) : Prop :=
  s.cfg.wf = true ∧ Settled s ∧ 1 ≤ s.text.length ∧ s.text.length ≤ textMax s.cfg ∧
    s.text.all printable = true ∧ immInRange s.decoded = true

/-- The outcome of an evaluation that recognises its word: the decoded value and the line on the outputs,
`illegal` = 0, everything else as it was. -/
abbrev shows (s : State) (d : DecodedInsn) (line : Text) : Result :=
  .next { s with text := line, illegal := false, decoded := d }

/-- The outcome of an evaluation that does not recognise its word (R180). -/
abbrev showsSentinel (s : State) : Result :=
  .next { s with text := s.cfg.illegalText, illegal := true, decoded := .illegal }

/-! ## The line of a word of each shape, in terms of the word's bits -/

/-- The line of an R-type word (R93) in terms of its bits. -/
def rTypeShows (s : State) (op : AluRegOp) (name : String) : Result :=
  shows s (.aluReg op (s.word.extractLsb' 7 5) (s.word.extractLsb' 15 5) (s.word.extractLsb' 20 5))
    (pad s.cfg name.toList ++ reg (s.word.extractLsb' 7 5) ++ ',' :: reg (s.word.extractLsb' 15 5) ++ ',' ::
      reg (s.word.extractLsb' 20 5))

/-- The line of an I-type ALU word (R91) in terms of its bits. -/
def aluImmShows (s : State) (op : AluImmOp) (name : String) : Result :=
  shows s (.aluImm op (s.word.extractLsb' 7 5) (s.word.extractLsb' 15 5) (Field.immI s.word))
    (pad s.cfg name.toList ++ reg (s.word.extractLsb' 7 5) ++ ',' :: reg (s.word.extractLsb' 15 5) ++ ',' ::
      dec (Field.immI s.word).toInt)

/-- The line of a shift-immediate word (R91) in terms of its bits. -/
def shiftShows (s : State) (op : ShiftOp) (name : String) : Result :=
  shows s (.shift op (s.word.extractLsb' 7 5) (s.word.extractLsb' 15 5) (s.word.extractLsb' 20 5))
    (pad s.cfg name.toList ++ reg (s.word.extractLsb' 7 5) ++ ',' :: reg (s.word.extractLsb' 15 5) ++ ',' ::
      decu (s.word.extractLsb' 20 5).toNat)

/-- The line of a load word (R92) in terms of its bits. -/
def loadShows (s : State) (op : LoadOp) (name : String) : Result :=
  shows s (.load op (s.word.extractLsb' 7 5) (s.word.extractLsb' 15 5) (Field.immI s.word))
    (pad s.cfg name.toList ++ reg (s.word.extractLsb' 7 5) ++ ',' ::
      dec (Field.immI s.word).toInt ++ '(' :: reg (s.word.extractLsb' 15 5) ++ [')'])

/-- The line of a store word (R95) in terms of its bits: `rs2` first, then displacement and `rs1`. -/
def storeShows (s : State) (op : StoreOp) (name : String) : Result :=
  shows s (.store op (s.word.extractLsb' 20 5) (s.word.extractLsb' 15 5) (Field.immS s.word))
    (pad s.cfg name.toList ++ reg (s.word.extractLsb' 20 5) ++ ',' ::
      dec (Field.immS s.word).toInt ++ '(' :: reg (s.word.extractLsb' 15 5) ++ [')'])

/-- The line of a branch word (R94) in terms of its bits and the address. -/
def branchShows (s : State) (op : BranchOp) (name : String) : Result :=
  shows s (.branch op (s.word.extractLsb' 15 5) (s.word.extractLsb' 20 5) (s.address + Field.immB s.word))
    (pad s.cfg name.toList ++ reg (s.word.extractLsb' 15 5) ++ ',' :: reg (s.word.extractLsb' 20 5) ++ ',' ::
      hexN 8 (s.address + Field.immB s.word).toNat)

/-! ## Reading a numeral back -/

/-- The value of a digit character; 16 for any other character. -/
def digitValue (c : Char) : Nat :=
  ['0', '1', '2', '3', '4', '5', '6', '7', '8', '9', 'a', 'b', 'c', 'd', 'e', 'f'].idxOf c

/-- The number a text of digits stands for in a base. -/
def readNumeral (base : Nat) (t : Text) : Nat := t.foldl (fun n c => n * base + digitValue c) 0

/-- Every character is a digit of the base, lower case. -/
def allDigits (base : Nat) (t : Text) : Bool := t.all fun c => digitValue c < base

/-- The characters of a recognised line (R15). -/
def lineChar (c : Char) : Bool :=
  ('a' ≤ c && c ≤ 'z') || ('0' ≤ c && c ≤ '9') || c == ',' || c == '(' || c == ')' || c == '-' || c == ' '

/-- The step completes (R182, R210: a step "always completes"). -/
def Safe (s : State) : Prop := ∃ t, step s = .next t

end Sys2Proof.Machine
end

