-- ==== Sys2Proof/Certificates/Slice0/Obligations.lean ====
section
/-! DEFINITION. The statements about the block. In each, `step` is one evaluation of the block and a
slice `w.extractLsb' lo n` is the spec's `word[lo+n-1:lo]`. Every statement holds for every value of
the two build parameters (R9, R10), which a state carries in `cfg`. -/

open Sys2Proof Sys2Proof.Machine

/-! ## What each instruction answers -/

/-- R89, R100, R101: `lui` and `auipc` complete in every state, with the decoded value and line given. -/
def Obligations.UpperImmediateInstructionsComplete : Prop :=
  ∀ (s : State) (rd : RegIdx) (imm20 : BitVec 20),
    exec (.lui rd imm20) s = shows s (.upper .lui rd imm20)
      (pad s.cfg "lui".toList ++ reg rd ++ ',' :: hexN 5 imm20.toNat) ∧
    exec (.auipc rd imm20) s = shows s (.upper .auipc rd imm20)
      (pad s.cfg "auipc".toList ++ reg rd ++ ',' :: hexN 5 imm20.toNat)

/-- R90, R92, R105, R106. `f3` is any value of the unexamined `funct3` of `jalr`: the spec's decision D9
(log 8), kept in the instruction by the model's own choice (log 7). -/
def Obligations.JumpInstructionsComplete : Prop :=
  ∀ (s : State) (rd rs1 : RegIdx) (f3 : BitVec 3) (v : Word),
    exec (.jal rd v) s = shows s (.jal rd (s.address + v))
      (pad s.cfg "jal".toList ++ reg rd ++ ',' :: hexN 8 (s.address + v).toNat) ∧
    exec (.jalr rd rs1 f3 v) s = shows s (.jalr rd rs1 v)
      (pad s.cfg "jalr".toList ++ reg rd ++ ',' :: disp v rs1)

/-- R96, R97, R110 to R117. -/
def Obligations.SystemInstructionsComplete : Prop :=
  ∀ (s : State) (rd r : RegIdx) (csr : CsrIdx) (zimm : BitVec 5),
    exec .ecall s = shows s .ecall "ecall".toList ∧
    exec .ebreak s = shows s .ebreak "ebreak".toList ∧
    exec (.csrrw rd csr r) s = shows s (.csrReg .csrrw rd csr r)
      (pad s.cfg "csrrw".toList ++ reg rd ++ ',' :: hexN 3 csr.toNat ++ ',' :: reg r) ∧
    exec (.csrrs rd csr r) s = shows s (.csrReg .csrrs rd csr r)
      (pad s.cfg "csrrs".toList ++ reg rd ++ ',' :: hexN 3 csr.toNat ++ ',' :: reg r) ∧
    exec (.csrrc rd csr r) s = shows s (.csrReg .csrrc rd csr r)
      (pad s.cfg "csrrc".toList ++ reg rd ++ ',' :: hexN 3 csr.toNat ++ ',' :: reg r) ∧
    exec (.csrrwi rd csr zimm) s = shows s (.csrImm .csrrwi rd csr zimm)
      (pad s.cfg "csrrwi".toList ++ reg rd ++ ',' :: hexN 3 csr.toNat ++ ',' :: decu zimm.toNat) ∧
    exec (.csrrsi rd csr zimm) s = shows s (.csrImm .csrrsi rd csr zimm)
      (pad s.cfg "csrrsi".toList ++ reg rd ++ ',' :: hexN 3 csr.toNat ++ ',' :: decu zimm.toNat) ∧
    exec (.csrrci rd csr zimm) s = shows s (.csrImm .csrrci rd csr zimm)
      (pad s.cfg "csrrci".toList ++ reg rd ++ ',' :: hexN 3 csr.toNat ++ ',' :: decu zimm.toNat)

/-- R93, R125 to R134. `f7` is any value of the unexamined `funct7` of `sll`, `slt`, `sltu`, `xor`, `or` and
`and`: the spec's decision D8 (log 8), kept in the instruction by the model's own choice (log 7). -/
def Obligations.RegisterAluInstructionsComplete : Prop :=
  ∀ (s : State) (rd rs1 rs2 : RegIdx) (f7 : BitVec 7),
    exec (.add rd rs1 rs2) s = shows s (.aluReg .add rd rs1 rs2)
      (pad s.cfg "add".toList ++ reg rd ++ ',' :: reg rs1 ++ ',' :: reg rs2) ∧
    exec (.sub rd rs1 rs2) s = shows s (.aluReg .sub rd rs1 rs2)
      (pad s.cfg "sub".toList ++ reg rd ++ ',' :: reg rs1 ++ ',' :: reg rs2) ∧
    exec (.sll rd rs1 rs2 f7) s = shows s (.aluReg .sll rd rs1 rs2)
      (pad s.cfg "sll".toList ++ reg rd ++ ',' :: reg rs1 ++ ',' :: reg rs2) ∧
    exec (.slt rd rs1 rs2 f7) s = shows s (.aluReg .slt rd rs1 rs2)
      (pad s.cfg "slt".toList ++ reg rd ++ ',' :: reg rs1 ++ ',' :: reg rs2) ∧
    exec (.sltu rd rs1 rs2 f7) s = shows s (.aluReg .sltu rd rs1 rs2)
      (pad s.cfg "sltu".toList ++ reg rd ++ ',' :: reg rs1 ++ ',' :: reg rs2) ∧
    exec (.xor rd rs1 rs2 f7) s = shows s (.aluReg .xor rd rs1 rs2)
      (pad s.cfg "xor".toList ++ reg rd ++ ',' :: reg rs1 ++ ',' :: reg rs2) ∧
    exec (.srl rd rs1 rs2) s = shows s (.aluReg .srl rd rs1 rs2)
      (pad s.cfg "srl".toList ++ reg rd ++ ',' :: reg rs1 ++ ',' :: reg rs2) ∧
    exec (.sra rd rs1 rs2) s = shows s (.aluReg .sra rd rs1 rs2)
      (pad s.cfg "sra".toList ++ reg rd ++ ',' :: reg rs1 ++ ',' :: reg rs2) ∧
    exec (.or rd rs1 rs2 f7) s = shows s (.aluReg .or rd rs1 rs2)
      (pad s.cfg "or".toList ++ reg rd ++ ',' :: reg rs1 ++ ',' :: reg rs2) ∧
    exec (.and rd rs1 rs2 f7) s = shows s (.aluReg .and rd rs1 rs2)
      (pad s.cfg "and".toList ++ reg rd ++ ',' :: reg rs1 ++ ',' :: reg rs2)

/-- R91, R140 to R148. `f7` is any value of the unexamined bits 31:25 of `slli`: the spec's decision D8
(log 8), kept in the instruction by the model's own choice (log 7). -/
def Obligations.ImmediateAluInstructionsComplete : Prop :=
  ∀ (s : State) (rd rs1 : RegIdx) (imm : Word) (shamt : BitVec 5) (f7 : BitVec 7),
    exec (.addi rd rs1 imm) s = shows s (.aluImm .addi rd rs1 imm)
      (pad s.cfg "addi".toList ++ reg rd ++ ',' :: reg rs1 ++ ',' :: dec imm.toInt) ∧
    exec (.slti rd rs1 imm) s = shows s (.aluImm .slti rd rs1 imm)
      (pad s.cfg "slti".toList ++ reg rd ++ ',' :: reg rs1 ++ ',' :: dec imm.toInt) ∧
    exec (.sltiu rd rs1 imm) s = shows s (.aluImm .sltiu rd rs1 imm)
      (pad s.cfg "sltiu".toList ++ reg rd ++ ',' :: reg rs1 ++ ',' :: dec imm.toInt) ∧
    exec (.xori rd rs1 imm) s = shows s (.aluImm .xori rd rs1 imm)
      (pad s.cfg "xori".toList ++ reg rd ++ ',' :: reg rs1 ++ ',' :: dec imm.toInt) ∧
    exec (.ori rd rs1 imm) s = shows s (.aluImm .ori rd rs1 imm)
      (pad s.cfg "ori".toList ++ reg rd ++ ',' :: reg rs1 ++ ',' :: dec imm.toInt) ∧
    exec (.andi rd rs1 imm) s = shows s (.aluImm .andi rd rs1 imm)
      (pad s.cfg "andi".toList ++ reg rd ++ ',' :: reg rs1 ++ ',' :: dec imm.toInt) ∧
    exec (.slli rd rs1 shamt f7) s = shows s (.shift .slli rd rs1 shamt)
      (pad s.cfg "slli".toList ++ reg rd ++ ',' :: reg rs1 ++ ',' :: decu shamt.toNat) ∧
    exec (.srli rd rs1 shamt) s = shows s (.shift .srli rd rs1 shamt)
      (pad s.cfg "srli".toList ++ reg rd ++ ',' :: reg rs1 ++ ',' :: decu shamt.toNat) ∧
    exec (.srai rd rs1 shamt) s = shows s (.shift .srai rd rs1 shamt)
      (pad s.cfg "srai".toList ++ reg rd ++ ',' :: reg rs1 ++ ',' :: decu shamt.toNat)

/-- R92, R155 to R159. -/
def Obligations.LoadInstructionsComplete : Prop :=
  ∀ (s : State) (rd rs1 : RegIdx) (imm : Word),
    exec (.lb rd rs1 imm) s = shows s (.load .lb rd rs1 imm)
      (pad s.cfg "lb".toList ++ reg rd ++ ',' :: disp imm rs1) ∧
    exec (.lh rd rs1 imm) s = shows s (.load .lh rd rs1 imm)
      (pad s.cfg "lh".toList ++ reg rd ++ ',' :: disp imm rs1) ∧
    exec (.lw rd rs1 imm) s = shows s (.load .lw rd rs1 imm)
      (pad s.cfg "lw".toList ++ reg rd ++ ',' :: disp imm rs1) ∧
    exec (.lbu rd rs1 imm) s = shows s (.load .lbu rd rs1 imm)
      (pad s.cfg "lbu".toList ++ reg rd ++ ',' :: disp imm rs1) ∧
    exec (.lhu rd rs1 imm) s = shows s (.load .lhu rd rs1 imm)
      (pad s.cfg "lhu".toList ++ reg rd ++ ',' :: disp imm rs1)

/-- R95, R165 to R167. -/
def Obligations.StoreInstructionsComplete : Prop :=
  ∀ (s : State) (rs2 rs1 : RegIdx) (imm : Word),
    exec (.sb rs2 rs1 imm) s = shows s (.store .sb rs2 rs1 imm)
      (pad s.cfg "sb".toList ++ reg rs2 ++ ',' :: disp imm rs1) ∧
    exec (.sh rs2 rs1 imm) s = shows s (.store .sh rs2 rs1 imm)
      (pad s.cfg "sh".toList ++ reg rs2 ++ ',' :: disp imm rs1) ∧
    exec (.sw rs2 rs1 imm) s = shows s (.store .sw rs2 rs1 imm)
      (pad s.cfg "sw".toList ++ reg rs2 ++ ',' :: disp imm rs1)

/-- R94, R170 to R175. -/
def Obligations.BranchInstructionsComplete : Prop :=
  ∀ (s : State) (rs1 rs2 : RegIdx) (off : Word),
    exec (.beq rs1 rs2 off) s = shows s (.branch .beq rs1 rs2 (s.address + off))
      (pad s.cfg "beq".toList ++ reg rs1 ++ ',' :: reg rs2 ++ ',' :: hexN 8 (s.address + off).toNat) ∧
    exec (.bne rs1 rs2 off) s = shows s (.branch .bne rs1 rs2 (s.address + off))
      (pad s.cfg "bne".toList ++ reg rs1 ++ ',' :: reg rs2 ++ ',' :: hexN 8 (s.address + off).toNat) ∧
    exec (.blt rs1 rs2 off) s = shows s (.branch .blt rs1 rs2 (s.address + off))
      (pad s.cfg "blt".toList ++ reg rs1 ++ ',' :: reg rs2 ++ ',' :: hexN 8 (s.address + off).toNat) ∧
    exec (.bge rs1 rs2 off) s = shows s (.branch .bge rs1 rs2 (s.address + off))
      (pad s.cfg "bge".toList ++ reg rs1 ++ ',' :: reg rs2 ++ ',' :: hexN 8 (s.address + off).toNat) ∧
    exec (.bltu rs1 rs2 off) s = shows s (.branch .bltu rs1 rs2 (s.address + off))
      (pad s.cfg "bltu".toList ++ reg rs1 ++ ',' :: reg rs2 ++ ',' :: hexN 8 (s.address + off).toNat) ∧
    exec (.bgeu rs1 rs2 off) s = shows s (.branch .bgeu rs1 rs2 (s.address + off))
      (pad s.cfg "bgeu".toList ++ reg rs1 ++ ',' :: reg rs2 ++ ',' :: hexN 8 (s.address + off).toNat)

/-- The frame of every instruction: the parameters and the inputs are left as they were. All that
changes are the three outputs (the rule template of spec/40_upper_immediate.md: "writes no register and no
memory, and has no flags"). -/
def Obligations.InstructionsChangeOutputsOnly : Prop :=
  ∀ (i : Instr) (s t : State), exec i s = .next t →
    t.cfg = s.cfg ∧ t.address = s.address ∧ t.word = s.word

/-! ## A step runs the decoded instruction -/

/-- R180, R190: a recognised word runs as its instruction, any other word gives the sentinel. -/
def Obligations.StepRunsTheDecodedInstruction : Prop :=
  ∀ s : State, (∀ i, decode s.word = .ok i → step s = exec i s) ∧
    (∀ r, decode s.word = .error r → step s = showsSentinel s)

/-- A well-formed instruction that the host presents (R211) is the one that runs. The encoder is the
model's own (R62). -/
def Obligations.PresentedInstructionRuns : Prop :=
  ∀ (s : State) (a : Word) (i : Instr), i.wf = true →
    step (s.present a (encode i)) = exec i (s.present a (encode i))

/-! ## What the block answers to each word, from the word's bits alone -/

/-- R100, R101. -/
def Obligations.UpperImmediateWordsRender : Prop :=
  ∀ s : State,
    (s.word.extractLsb' 0 7 = 0b0110111#7 →
      step s = shows s (.upper .lui (s.word.extractLsb' 7 5) (s.word.extractLsb' 12 20))
        (pad s.cfg "lui".toList ++ reg (s.word.extractLsb' 7 5) ++ ',' ::
          hexN 5 (s.word.extractLsb' 12 20).toNat)) ∧
    (s.word.extractLsb' 0 7 = 0b0010111#7 →
      step s = shows s (.upper .auipc (s.word.extractLsb' 7 5) (s.word.extractLsb' 12 20))
        (pad s.cfg "auipc".toList ++ reg (s.word.extractLsb' 7 5) ++ ',' ::
          hexN 5 (s.word.extractLsb' 12 20).toNat))

/-- R105: the text and the target of a `jal` word. -/
def Obligations.JalWordsRenderTheAbsoluteTarget : Prop :=
  ∀ s : State, s.word.extractLsb' 0 7 = 0b1101111#7 →
    step s = shows s (.jal (s.word.extractLsb' 7 5) (s.address + Field.immJ s.word))
      (pad s.cfg "jal".toList ++ reg (s.word.extractLsb' 7 5) ++ ',' ::
        hexN 8 (s.address + Field.immJ s.word).toNat)

/-- R106: every word with the opcode is `jalr`, whatever its `funct3` (the spec's decision D9; log 8). -/
def Obligations.JalrWordsRenderTheDisplacement : Prop :=
  ∀ s : State, s.word.extractLsb' 0 7 = 0b1100111#7 →
    step s = shows s (.jalr (s.word.extractLsb' 7 5) (s.word.extractLsb' 15 5) (Field.immI s.word))
      (pad s.cfg "jalr".toList ++ reg (s.word.extractLsb' 7 5) ++ ',' ::
        dec (Field.immI s.word).toInt ++ '(' :: reg (s.word.extractLsb' 15 5) ++ [')'])

/-- R110, R111: exactly one word is `ecall` and exactly one is `ebreak`; neither line is padded. Every
other SYSTEM word with `funct3` 000 is illegal. -/
def Obligations.EnvironmentWordsAreExact : Prop :=
  ∀ s : State,
    (s.word = 0x00000073#32 → step s = shows s .ecall "ecall".toList) ∧
    (s.word = 0x00100073#32 → step s = shows s .ebreak "ebreak".toList) ∧
    (∀ t, step s = .next t → (t.decoded = .ecall ↔ s.word = 0x00000073#32) ∧
      (t.decoded = .ebreak ↔ s.word = 0x00100073#32)) ∧
    (s.word.extractLsb' 0 7 = 0b1110011#7 → s.word.extractLsb' 12 3 = 0b000#3 →
      s.word ≠ 0x00000073#32 → s.word ≠ 0x00100073#32 → step s = showsSentinel s)

/-- R112, R113, R114. -/
def Obligations.CsrRegisterWordsRender : Prop :=
  ∀ s : State, s.word.extractLsb' 0 7 = 0b1110011#7 →
    (s.word.extractLsb' 12 3 = 0b001#3 →
      step s = shows s (.csrReg .csrrw (s.word.extractLsb' 7 5) (s.word.extractLsb' 20 12) (s.word.extractLsb' 15 5))
        (pad s.cfg "csrrw".toList ++ reg (s.word.extractLsb' 7 5) ++ ',' ::
          hexN 3 (s.word.extractLsb' 20 12).toNat ++ ',' :: reg (s.word.extractLsb' 15 5))) ∧
    (s.word.extractLsb' 12 3 = 0b010#3 →
      step s = shows s (.csrReg .csrrs (s.word.extractLsb' 7 5) (s.word.extractLsb' 20 12) (s.word.extractLsb' 15 5))
        (pad s.cfg "csrrs".toList ++ reg (s.word.extractLsb' 7 5) ++ ',' ::
          hexN 3 (s.word.extractLsb' 20 12).toNat ++ ',' :: reg (s.word.extractLsb' 15 5))) ∧
    (s.word.extractLsb' 12 3 = 0b011#3 →
      step s = shows s (.csrReg .csrrc (s.word.extractLsb' 7 5) (s.word.extractLsb' 20 12) (s.word.extractLsb' 15 5))
        (pad s.cfg "csrrc".toList ++ reg (s.word.extractLsb' 7 5) ++ ',' ::
          hexN 3 (s.word.extractLsb' 20 12).toNat ++ ',' :: reg (s.word.extractLsb' 15 5)))

/-- R115, R116, R117. -/
def Obligations.CsrImmediateWordsRender : Prop :=
  ∀ s : State, s.word.extractLsb' 0 7 = 0b1110011#7 →
    (s.word.extractLsb' 12 3 = 0b101#3 →
      step s = shows s (.csrImm .csrrwi (s.word.extractLsb' 7 5) (s.word.extractLsb' 20 12) (s.word.extractLsb' 15 5))
        (pad s.cfg "csrrwi".toList ++ reg (s.word.extractLsb' 7 5) ++ ',' ::
          hexN 3 (s.word.extractLsb' 20 12).toNat ++ ',' :: decu (s.word.extractLsb' 15 5).toNat)) ∧
    (s.word.extractLsb' 12 3 = 0b110#3 →
      step s = shows s (.csrImm .csrrsi (s.word.extractLsb' 7 5) (s.word.extractLsb' 20 12) (s.word.extractLsb' 15 5))
        (pad s.cfg "csrrsi".toList ++ reg (s.word.extractLsb' 7 5) ++ ',' ::
          hexN 3 (s.word.extractLsb' 20 12).toNat ++ ',' :: decu (s.word.extractLsb' 15 5).toNat)) ∧
    (s.word.extractLsb' 12 3 = 0b111#3 →
      step s = shows s (.csrImm .csrrci (s.word.extractLsb' 7 5) (s.word.extractLsb' 20 12) (s.word.extractLsb' 15 5))
        (pad s.cfg "csrrci".toList ++ reg (s.word.extractLsb' 7 5) ++ ',' ::
          hexN 3 (s.word.extractLsb' 20 12).toNat ++ ',' :: decu (s.word.extractLsb' 15 5).toNat))

/-- R125, R126, R131, R132: `funct7` selects. -/
def Obligations.RegisterAluWordsSelectedByFunct7 : Prop :=
  ∀ s : State, s.word.extractLsb' 0 7 = 0b0110011#7 →
    (s.word.extractLsb' 12 3 = 0b000#3 → s.word.extractLsb' 25 7 = 0b0000000#7 →
      step s = rTypeShows s .add "add") ∧
    (s.word.extractLsb' 12 3 = 0b000#3 → s.word.extractLsb' 25 7 = 0b0100000#7 →
      step s = rTypeShows s .sub "sub") ∧
    (s.word.extractLsb' 12 3 = 0b101#3 → s.word.extractLsb' 25 7 = 0b0000000#7 →
      step s = rTypeShows s .srl "srl") ∧
    (s.word.extractLsb' 12 3 = 0b101#3 → s.word.extractLsb' 25 7 = 0b0100000#7 →
      step s = rTypeShows s .sra "sra") ∧
    (s.word.extractLsb' 12 3 = 0b000#3 ∨ s.word.extractLsb' 12 3 = 0b101#3 →
      s.word.extractLsb' 25 7 ≠ 0b0000000#7 → s.word.extractLsb' 25 7 ≠ 0b0100000#7 →
      step s = showsSentinel s)

/-- R127 to R130, R133, R134: `funct7` is not examined (the spec's decision D8; log 8). -/
def Obligations.RegisterAluWordsIgnoringFunct7 : Prop :=
  ∀ s : State, s.word.extractLsb' 0 7 = 0b0110011#7 →
    (s.word.extractLsb' 12 3 = 0b001#3 → step s = rTypeShows s .sll "sll") ∧
    (s.word.extractLsb' 12 3 = 0b010#3 → step s = rTypeShows s .slt "slt") ∧
    (s.word.extractLsb' 12 3 = 0b011#3 → step s = rTypeShows s .sltu "sltu") ∧
    (s.word.extractLsb' 12 3 = 0b100#3 → step s = rTypeShows s .xor "xor") ∧
    (s.word.extractLsb' 12 3 = 0b110#3 → step s = rTypeShows s .or "or") ∧
    (s.word.extractLsb' 12 3 = 0b111#3 → step s = rTypeShows s .and "and")

/-- R140 to R145. -/
def Obligations.ImmediateAluWordsRender : Prop :=
  ∀ s : State, s.word.extractLsb' 0 7 = 0b0010011#7 →
    (s.word.extractLsb' 12 3 = 0b000#3 → step s = aluImmShows s .addi "addi") ∧
    (s.word.extractLsb' 12 3 = 0b010#3 → step s = aluImmShows s .slti "slti") ∧
    (s.word.extractLsb' 12 3 = 0b011#3 → step s = aluImmShows s .sltiu "sltiu") ∧
    (s.word.extractLsb' 12 3 = 0b100#3 → step s = aluImmShows s .xori "xori") ∧
    (s.word.extractLsb' 12 3 = 0b110#3 → step s = aluImmShows s .ori "ori") ∧
    (s.word.extractLsb' 12 3 = 0b111#3 → step s = aluImmShows s .andi "andi")

/-- R146 (bits 31:25 not examined: the spec's decision D8, log 8), R147, R148. The printed amount is
`word[24:20]` (R69; the spec's decision D7, log 10). -/
def Obligations.ShiftWordsRender : Prop :=
  ∀ s : State, s.word.extractLsb' 0 7 = 0b0010011#7 →
    (s.word.extractLsb' 12 3 = 0b001#3 → step s = shiftShows s .slli "slli") ∧
    (s.word.extractLsb' 12 3 = 0b101#3 → s.word.extractLsb' 25 7 = 0b0000000#7 →
      step s = shiftShows s .srli "srli") ∧
    (s.word.extractLsb' 12 3 = 0b101#3 → s.word.extractLsb' 25 7 = 0b0100000#7 →
      step s = shiftShows s .srai "srai") ∧
    (s.word.extractLsb' 12 3 = 0b101#3 → s.word.extractLsb' 25 7 ≠ 0b0000000#7 →
      s.word.extractLsb' 25 7 ≠ 0b0100000#7 → step s = showsSentinel s)

/-- R155 to R159. -/
def Obligations.LoadWordsRender : Prop :=
  ∀ s : State, s.word.extractLsb' 0 7 = 0b0000011#7 →
    (s.word.extractLsb' 12 3 = 0b000#3 → step s = loadShows s .lb "lb") ∧
    (s.word.extractLsb' 12 3 = 0b001#3 → step s = loadShows s .lh "lh") ∧
    (s.word.extractLsb' 12 3 = 0b010#3 → step s = loadShows s .lw "lw") ∧
    (s.word.extractLsb' 12 3 = 0b100#3 → step s = loadShows s .lbu "lbu") ∧
    (s.word.extractLsb' 12 3 = 0b101#3 → step s = loadShows s .lhu "lhu")

/-- R165 to R167. -/
def Obligations.StoreWordsRender : Prop :=
  ∀ s : State, s.word.extractLsb' 0 7 = 0b0100011#7 →
    (s.word.extractLsb' 12 3 = 0b000#3 → step s = storeShows s .sb "sb") ∧
    (s.word.extractLsb' 12 3 = 0b001#3 → step s = storeShows s .sh "sh") ∧
    (s.word.extractLsb' 12 3 = 0b010#3 → step s = storeShows s .sw "sw")

/-- R170 to R175. -/
def Obligations.BranchWordsRenderTheAbsoluteTarget : Prop :=
  ∀ s : State, s.word.extractLsb' 0 7 = 0b1100011#7 →
    (s.word.extractLsb' 12 3 = 0b000#3 → step s = branchShows s .beq "beq") ∧
    (s.word.extractLsb' 12 3 = 0b001#3 → step s = branchShows s .bne "bne") ∧
    (s.word.extractLsb' 12 3 = 0b100#3 → step s = branchShows s .blt "blt") ∧
    (s.word.extractLsb' 12 3 = 0b101#3 → step s = branchShows s .bge "bge") ∧
    (s.word.extractLsb' 12 3 = 0b110#3 → step s = branchShows s .bltu "bltu") ∧
    (s.word.extractLsb' 12 3 = 0b111#3 → step s = branchShows s .bgeu "bgeu")

/-- R180: a word that matches no row of the opcode map gives the sentinel, for every address; a word
that matches one does not. -/
def Obligations.WordsOutsideTheMapGiveTheSentinel : Prop :=
  ∀ s : State,
    ((∀ r ∈ opcodeTable, s.word &&& r.mask ≠ r.pattern) → step s = showsSentinel s) ∧
    (∀ r ∈ opcodeTable, s.word &&& r.mask = r.pattern →
      ∃ t, step s = .next t ∧ t.illegal = false ∧ t.decoded ≠ .illegal)

/-- The complete list of illegal words by the level of the tree that rejects them (the table of R181,
which the spec derives from R71 to R77; its conditions only, not its counts). -/
def Obligations.IllegalWordsByLevel : Prop :=
  ∀ (s t : State), step s = .next t →
    (t.illegal = true ↔
      s.word.extractLsb' 0 7 ∉ [0x37#7, 0x17#7, 0x6f#7, 0x67#7, 0x73#7, 0x33#7, 0x13#7, 0x03#7, 0x23#7, 0x63#7] ∨
      (s.word.extractLsb' 0 7 = 0x73#7 ∧ s.word ≠ 0x00000073#32 ∧ s.word ≠ 0x00100073#32 ∧
        s.word.extractLsb' 12 3 ∈ [0b000#3, 0b100#3]) ∨
      (s.word.extractLsb' 0 7 = 0x03#7 ∧ s.word.extractLsb' 12 3 ∈ [0b011#3, 0b110#3, 0b111#3]) ∨
      (s.word.extractLsb' 0 7 = 0x23#7 ∧ s.word.extractLsb' 12 3 ∈ [0b011#3, 0b100#3, 0b101#3, 0b110#3, 0b111#3]) ∨
      (s.word.extractLsb' 0 7 = 0x63#7 ∧ s.word.extractLsb' 12 3 ∈ [0b010#3, 0b011#3]) ∨
      (s.word.extractLsb' 0 7 = 0x33#7 ∧ s.word.extractLsb' 12 3 ∈ [0b000#3, 0b101#3] ∧
        s.word.extractLsb' 25 7 ∉ [0b0000000#7, 0b0100000#7]) ∨
      (s.word.extractLsb' 0 7 = 0x13#7 ∧ s.word.extractLsb' 12 3 = 0b101#3 ∧
        s.word.extractLsb' 25 7 ∉ [0b0000000#7, 0b0100000#7]))

/-! ## Encoding -/

/-- Decoding the encoding of any well-formed instruction gives it back, the unexamined bits among its
arguments (the model's own choice, log 7) included. -/
def Obligations.DecodeOfEncodeIsTheInstruction : Prop :=
  ∀ i : Instr, i.wf = true → decode (encode i) = .ok i

/-- Every recognised word is the encoding of the instruction it decodes to, which is well-formed. That the
word comes back bit for bit is the model's own choice: the instruction keeps the bits that R80 calls
unexamined (log 7). -/
def Obligations.EncodeOfDecodeIsTheWord : Prop :=
  ∀ (w : Word) (i : Instr), decode w = .ok i → encode i = w ∧ i.wf = true

/-- R99: the decision tree and the match/mask map agree. A recognised word matches exactly one row, the
row of its instruction; an illegal word matches none; there are 45 rows. -/
def Obligations.TreeAgreesWithTheOpcodeMap : Prop :=
  opcodeTable.length = 45 ∧
    ∀ w : Word, opcodeTable.filter (fun r => w &&& r.mask == r.pattern) =
      match decode w with
      | .ok i => [i.row]
      | .error _ => []

/-- The line of an instruction begins with the mnemonic of its row of the opcode map. -/
def Obligations.LinesBeginWithTheMnemonicOfTheRow : Prop :=
  ∀ (i : Instr) (s : State), ∃ t, exec i s = .next t ∧ i.row.name <+: t.text

/-- A few words written out from the spec's encodings decode to the instructions they stand for. -/
def Obligations.KnownWordsDecode : Prop :=
  decode 0x00000537#32 = .ok (.lui 10 0) ∧
  decode 0x00100073#32 = .ok .ebreak ∧
  decode 0xff1ff06f#32 = .ok (.jal 0 (-16)) ∧
  decode 0x81ffa023#32 = .ok (.sw 31 31 (-2048)) ∧
  decode 0x801170e3#32 = .ok (.bgeu 2 1 (-2048)) ∧
  decode 0x00000000#32 = .error .opcode

/-- R63: the bits of `imm_i`, its range, and its inverse. -/
def Obligations.ImmediateIIsTheSpecsBits : Prop :=
  ∀ w : Word,
    (Field.immI w).extractLsb' 0 12 = w.extractLsb' 20 12 ∧
    (∀ j, 12 ≤ j → j < 32 → (Field.immI w).getLsbD j = w.getLsbD 31) ∧
    -2048 ≤ (Field.immI w).toInt ∧ (Field.immI w).toInt ≤ 2047 ∧
    (∀ v : Word, -2048 ≤ v.toInt → v.toInt ≤ 2047 →
      w.extractLsb' 20 12 = v.extractLsb' 0 12 → Field.immI w = v)

/-- R64 -/
def Obligations.ImmediateSIsTheSpecsBits : Prop :=
  ∀ w : Word,
    (Field.immS w).extractLsb' 5 7 = w.extractLsb' 25 7 ∧
    (Field.immS w).extractLsb' 0 5 = w.extractLsb' 7 5 ∧
    (∀ j, 12 ≤ j → j < 32 → (Field.immS w).getLsbD j = w.getLsbD 31) ∧
    -2048 ≤ (Field.immS w).toInt ∧ (Field.immS w).toInt ≤ 2047 ∧
    (∀ v : Word, -2048 ≤ v.toInt → v.toInt ≤ 2047 →
      w.extractLsb' 25 7 = v.extractLsb' 5 7 → w.extractLsb' 7 5 = v.extractLsb' 0 5 → Field.immS w = v)

/-- R65 -/
def Obligations.ImmediateBIsTheSpecsBits : Prop :=
  ∀ w : Word,
    (Field.immB w).getLsbD 12 = w.getLsbD 31 ∧
    (Field.immB w).getLsbD 11 = w.getLsbD 7 ∧
    (Field.immB w).extractLsb' 5 6 = w.extractLsb' 25 6 ∧
    (Field.immB w).extractLsb' 1 4 = w.extractLsb' 8 4 ∧
    (Field.immB w).getLsbD 0 = false ∧
    (∀ j, 13 ≤ j → j < 32 → (Field.immB w).getLsbD j = w.getLsbD 31) ∧
    -4096 ≤ (Field.immB w).toInt ∧ (Field.immB w).toInt ≤ 4094 ∧ (Field.immB w).toInt % 2 = 0 ∧
    (∀ v : Word, -4096 ≤ v.toInt → v.toInt ≤ 4094 → v.toInt % 2 = 0 →
      w.getLsbD 31 = v.getLsbD 12 → w.getLsbD 7 = v.getLsbD 11 →
      w.extractLsb' 25 6 = v.extractLsb' 5 6 → w.extractLsb' 8 4 = v.extractLsb' 1 4 → Field.immB w = v)

/-- R66 -/
def Obligations.ImmediateUIsTheSpecsBits : Prop :=
  ∀ w : Word,
    (Field.immU w).extractLsb' 12 20 = w.extractLsb' 12 20 ∧
    (Field.immU w).extractLsb' 0 12 = 0 ∧
    -2 ^ 31 ≤ (Field.immU w).toInt ∧ (Field.immU w).toInt ≤ 2 ^ 31 - 4096 ∧
    (Field.immU w).toInt % 4096 = 0 ∧
    (∀ v : Word, v.toInt % 4096 = 0 → w.extractLsb' 12 20 = v.extractLsb' 12 20 → Field.immU w = v)

/-- R67 -/
def Obligations.ImmediateJIsTheSpecsBits : Prop :=
  ∀ w : Word,
    (Field.immJ w).getLsbD 20 = w.getLsbD 31 ∧
    (Field.immJ w).extractLsb' 12 8 = w.extractLsb' 12 8 ∧
    (Field.immJ w).getLsbD 11 = w.getLsbD 20 ∧
    (Field.immJ w).extractLsb' 1 10 = w.extractLsb' 21 10 ∧
    (Field.immJ w).getLsbD 0 = false ∧
    (∀ j, 21 ≤ j → j < 32 → (Field.immJ w).getLsbD j = w.getLsbD 31) ∧
    -1048576 ≤ (Field.immJ w).toInt ∧ (Field.immJ w).toInt ≤ 1048574 ∧ (Field.immJ w).toInt % 2 = 0 ∧
    (∀ v : Word, -1048576 ≤ v.toInt → v.toInt ≤ 1048574 → v.toInt % 2 = 0 →
      w.getLsbD 31 = v.getLsbD 20 → w.extractLsb' 12 8 = v.extractLsb' 12 8 →
      w.getLsbD 20 = v.getLsbD 11 → w.extractLsb' 21 10 = v.extractLsb' 1 10 → Field.immJ w = v)

/-- The multiplexer of R68: what it selects for each opcode, for every word of the class, the illegal ones
too; and that what it selects is what the dispatcher uses. That it is 0 where there is no immediate
(R-TYPE, SYSTEM, unrecognized) is the spec's choice D20 (log 12). -/
def Obligations.MultiplexerFeedsTheDispatcher : Prop :=
  ∀ a w : Word,
    (w.extractLsb' 0 7 ∈ [0x37#7, 0x17#7] → immMux w = Field.immU w) ∧
    (w.extractLsb' 0 7 = 0x6f#7 → immMux w = Field.immJ w) ∧
    (w.extractLsb' 0 7 ∈ [0x67#7, 0x03#7, 0x13#7] → immMux w = Field.immI w) ∧
    (w.extractLsb' 0 7 = 0x23#7 → immMux w = Field.immS w) ∧
    (w.extractLsb' 0 7 = 0x63#7 → immMux w = Field.immB w) ∧
    (w.extractLsb' 0 7 ∈ [0x33#7, 0x73#7] → immMux w = 0) ∧
    (w.extractLsb' 0 7 ∉ [0x37#7, 0x17#7, 0x6f#7, 0x67#7, 0x73#7, 0x33#7, 0x13#7, 0x03#7, 0x23#7, 0x63#7] →
      immMux w = 0) ∧
    (∀ op rd imm20, classify a w = .upper op rd imm20 → immMux w = Field.immU w ∧
      imm20 = (immMux w).extractLsb' 12 20) ∧
    (∀ rd tgt, classify a w = .jal rd tgt → immMux w = Field.immJ w ∧ tgt = a + immMux w) ∧
    (∀ rd rs1 imm, classify a w = .jalr rd rs1 imm → immMux w = Field.immI w ∧ imm = immMux w) ∧
    (∀ op rd rs1 imm, classify a w = .load op rd rs1 imm → immMux w = Field.immI w ∧ imm = immMux w) ∧
    (∀ op rd rs1 imm, classify a w = .aluImm op rd rs1 imm → immMux w = Field.immI w ∧ imm = immMux w) ∧
    (∀ op rd rs1 sh, classify a w = .shift op rd rs1 sh → immMux w = Field.immI w ∧
      sh = (immMux w).extractLsb' 0 5) ∧
    (∀ op rs2 rs1 imm, classify a w = .store op rs2 rs1 imm → immMux w = Field.immS w ∧ imm = immMux w) ∧
    (∀ op rs1 rs2 tgt, classify a w = .branch op rs1 rs2 tgt → immMux w = Field.immB w ∧
      tgt = a + immMux w)

/-- R69: the shift amount is the floored remainder (the spec's decision D7, log 10), and it is the bits
24:20 of the word. -/
def Obligations.ShiftAmountIsTheFlooredRemainder : Prop :=
  ∀ w : Word,
    ((Field.shamt w).toNat : Int) = (Field.immI w).toInt % 32 ∧
    Field.shamt w = (Field.immI w).extractLsb' 0 5 ∧ Field.shamt w = w.extractLsb' 20 5

/-- R70; the positions are the spec's decision D10 (log 9). -/
def Obligations.CsrFieldsAreTheSpecsBits : Prop :=
  ∀ w : Word, Field.csr w = w.extractLsb' 20 12 ∧ Field.csr w = (Field.immI w).extractLsb' 0 12 ∧
    Field.zimm w = w.extractLsb' 15 5 ∧ Field.zimm w = Field.rs1 w

/-- R80, which the spec derives from its tree: for a recognised word, another word decodes to the same
value exactly when the two agree on every bit but the unexamined ones. -/
def Obligations.UnexaminedBitsAreTheOnlyOnesLost : Prop :=
  ∀ a w w' : Word, recognised w = true →
    (classify a w' = classify a w ↔ w' &&& ~~~unexaminedBits w = w &&& ~~~unexaminedBits w)

/-- The number of recognised words (R181, which the spec derives): 272826370 of the 2^32. -/
def Obligations.RecognisedWordsAreCounted : Prop :=
  Nonempty ({w : Word // recognised w = true} ≃ Fin 272826370)

/-! ## Operands -/

/-- R81, R82: the decimal numeral has no leading zero and reads back as its number; `reg` and `dec` are
made of it. The minimal form is the spec's decision D6 (log 11). -/
def Obligations.DecimalFormsReadBack : Prop :=
  (∀ n : Nat, allDigits 10 (decu n) = true ∧ readNumeral 10 (decu n) = n ∧
    ((decu n).head? = some '0' → decu n = ['0'])) ∧
  (∀ r : RegIdx, reg r = 'x' :: decu r.toNat ∧ 2 ≤ (reg r).length ∧ (reg r).length ≤ 3) ∧
  (∀ v : Int, (v < 0 → dec v = '-' :: decu v.natAbs) ∧ (0 ≤ v → dec v = decu v.natAbs))

/-- R83: `0x`, exactly `n` lower-case digits, and they read back as `v mod 16^n` (for a value wider than
the field, the spec's decision D18, log 12). -/
def Obligations.HexFormsReadBack : Prop :=
  ∀ n v : Nat, ∃ ds : Text, hexN n v = "0x".toList ++ ds ∧ ds.length = n ∧ allDigits 16 ds = true ∧
    readNumeral 16 ds = v % 16 ^ n

/-- R84: left-justified, padded with spaces to the column, never truncated (the spec's decision D3,
log 11). -/
def Obligations.MnemonicsArePaddedNotTruncated : Prop :=
  ∀ (cfg : Config) (m : Text),
    pad cfg m = m ++ List.replicate (cfg.mnemonicWidth - m.length) ' ' ∧
    (pad cfg m).length = max cfg.mnemonicWidth m.length ∧
    (cfg.mnemonicWidth ≤ m.length → pad cfg m = m)

/-- The PC-relative law (R105 for `jal`; for branches R177, which the spec derives): the line ends in
`0x` and eight lower-case hexadecimal digits that read as `(A + O) mod 2^32`, with `O` the signed offset. -/
def Obligations.TargetsAreTheWrappedSum : Prop :=
  ∀ s t : State, step s = .next t →
    (s.word.extractLsb' 0 7 = 0b1101111#7 →
      ∃ pre ds : Text, t.text = pre ++ "0x".toList ++ ds ∧ ds.length = 8 ∧ allDigits 16 ds = true ∧
        (readNumeral 16 ds : Int) = ((s.address.toNat : Int) + (Field.immJ s.word).toInt) % 2 ^ 32) ∧
    (s.word.extractLsb' 0 7 = 0b1100011#7 → t.illegal = false →
      ∃ pre ds : Text, t.text = pre ++ "0x".toList ++ ds ∧ ds.length = 8 ∧ allDigits 16 ds = true ∧
        (readNumeral 16 ds : Int) = ((s.address.toNat : Int) + (Field.immB s.word).toInt) % 2 ^ 32)

/-- The family invariant of `lui` and `auipc` (R102, which the spec derives): the length of the line, and
`word[31:12]` read back from its last five digits. -/
def Obligations.UpperImmediateLinesLoseNoBit : Prop :=
  ∀ s t : State, step s = .next t →
    (s.word.extractLsb' 0 7 = 0b0110111#7 ∨ s.word.extractLsb' 0 7 = 0b0010111#7) →
    t.text.length = max s.cfg.mnemonicWidth (if s.word.extractLsb' 0 7 = 0b0110111#7 then 3 else 5) +
      (reg (s.word.extractLsb' 7 5)).length + 8 ∧
    ∃ pre ds : Text, t.text = pre ++ "0x".toList ++ ds ∧ ds.length = 5 ∧ allDigits 16 ds = true ∧
      readNumeral 16 ds = (s.word.extractLsb' 12 20).toNat

/-- R15, R85: a recognised line has only the listed characters, begins with a lower-case letter and has
no trailing space (ASCII and the separator are the spec's decisions D2 and D5, logs 5 and 11). -/
def Obligations.RecognisedLinesAreOneCleanLine : Prop :=
  ∀ s t : State, step s = .next t → t.illegal = false →
    t.text.all lineChar = true ∧ (∃ c, t.text.head? = some c ∧ 'a' ≤ c ∧ c ≤ 'z') ∧
    t.text.getLast? ≠ some ' '

/-! ## The whole block -/

/-- R30: a step is the function of the spec, `text = render(classify(address, word))`, and the flag is
1 exactly when the value is `Illegal`. -/
def Obligations.StepIsRenderOfClassify : Prop :=
  ∀ s : State, step s = .next { s with
    text := render s.cfg (classify s.address s.word)
    illegal := decide (classify s.address s.word = .illegal)
    decoded := classify s.address s.word }

/-- R182: an evaluation always completes, with a line of length between 1 and `TEXT_MAX` (R11). -/
def Obligations.EveryEvaluationCompletesWithALine : Prop :=
  ∀ s : State, s.cfg.illegalText ≠ [] →
    ∃ t, step s = .next t ∧ 1 ≤ t.text.length ∧ t.text.length ≤ textMax s.cfg

/-- Every evaluation of a pair leads to a state that meets the invariant, whatever was on the outputs
before: only the sentinel has to be non-empty and printable (R10), and no step changes it. Since `s.present
s.address s.word` is `s`, this covers every step, and a step from a state that meets the invariant keeps
it. It holds R11, R15, R27, R30 and R182 of the state after an evaluation. -/
def Obligations.StepKeepsTheInvariant : Prop :=
  ∀ (s t : State) (a w : Word), s.cfg.wf = true → step (s.present a w) = .next t → Inv t

/-- The invariant holds at reset. The values at reset are the model's own choice (logs 2, 3, 4). -/
def Obligations.ResetMeetsTheInvariant : Prop := Inv State.reset

/-- R31: equal inputs give equal outputs whatever was evaluated in between. -/
def Obligations.OutputsDependOnTheInputsAlone : Prop :=
  ∀ (s t u v : State) (a w : Word) (pairs : List (Word × Word)) (lines : List Line),
    step (s.present a w) = .next t → evaluate t pairs = .next (lines, u) →
    step (u.present a w) = .next v →
    v.text = t.text ∧ v.illegal = t.illegal ∧ v.decoded = t.decoded

/-- R45: evaluating again changes nothing. -/
def Obligations.EvaluationIsIdempotent : Prop :=
  ∀ s t : State, step s = .next t → step t = .next t

/-- R22: the line depends on `address` exactly for `jal` and the six branches. -/
def Obligations.AddressIsReadByJalAndBranchesOnly : Prop :=
  ∀ (s t t' : State) (a : Word), step s = .next t → step { s with address := a } = .next t' →
    (t'.text = t.text ↔
      a = s.address ∨ ¬ (s.word.extractLsb' 0 7 = 0b1101111#7 ∨
        (s.word.extractLsb' 0 7 = 0b1100011#7 ∧ t.illegal = false)))

/-- With every sentinel that R10 allows, the flag can be told from the text (the spec's decisions D4 and
D19). -/
def Obligations.SentinelIsToldFromEveryLine : Prop :=
  ∀ s t : State, LegalConfig s.cfg → step s = .next t →
    (t.illegal = true ↔ t.text = s.cfg.illegalText)

/-- R29: the packed ports, which are the spec's decisions D1 and D2 (log 5). -/
def Obligations.PortsCarryTheLine : Prop :=
  ∀ s t : State, s.cfg.wf = true → step s = .next t →
    2 ^ (textLenWidth s.cfg - 1) ≤ textMax s.cfg ∧ textMax s.cfg < 2 ^ textLenWidth s.cfg ∧
    t.textLenPort.toNat = t.text.length ∧
    1 ≤ t.textLenPort.toNat ∧ t.textLenPort.toNat ≤ textMax s.cfg ∧
    (∀ k, k < textMax s.cfg → t.textPort.extractLsb' (8 * k) 8 =
      match t.text[k]? with
      | some c => asciiByte c
      | none => 0) ∧
    (t.illegal = true ↔ t.decoded = .illegal)

/-! ## The host's side -/

/-- Evaluations do not interact (R48, R208): the lines of a sequence are the decodings of its pairs. That
the bench collects the sentinel's line and goes on is the model's own choice (log 20, DESIGN CHOICE: R190 and
R211 leave it to the host). -/
def Obligations.SequencesDecodeEachPairOnItsOwn : Prop :=
  ∀ (s : State) (pairs : List (Word × Word)), ∃ u,
    evaluate s pairs = .next
      (pairs.map fun p => (decodeText s.cfg p.1 p.2, decide (classify p.1 p.2 = .illegal)), u) ∧
    u.cfg = s.cfg

/-- R40: `read32` is little-endian (the byte positions are the spec's decision D23, log 13); an image of
four bytes is read back as its word. That this holds at misaligned addresses too, that a read sees the
bytes placed before it, and that bytes can be placed at any address are the model's own choices (logs 16, 17,
19). -/
def Obligations.ReadIsLittleEndian : Prop :=
  ∀ (m : Memory) (a : Word) (b0 b1 b2 b3 : Byte),
    (m.readByte a = some b0 → m.readByte (a + 1) = some b1 → m.readByte (a + 2) = some b2 →
      m.readByte (a + 3) = some b3 →
      (m.read32 a).extractLsb' 0 8 = b0 ∧ (m.read32 a).extractLsb' 8 8 = b1 ∧
      (m.read32 a).extractLsb' 16 8 = b2 ∧ (m.read32 a).extractLsb' 24 8 = b3) ∧
    (m.load a [b0, b1, b2, b3]).read32 a = b3 ++ b2 ++ b1 ++ b0

/-- R211: a listing steps the address by 4 (wrapping at 2^32 as in the spec's test program P4) and decodes
what `read32` gives there. That every line reads the one unchanged memory `m` is the model's own choice (log
18, DESIGN CHOICE: R45 leaves open whether a read has side effects), and so is that the listing goes on after
a sentinel (log 20, DESIGN CHOICE). The bench is outside the block (log 13). -/
def Obligations.ListingDecodesEachWordAtItsAddress : Prop :=
  ∀ (m : Memory) (n : Nat) (a : Word) (s : State), ∃ lines u,
    listing m n a s = .next (lines, u) ∧ lines.length = n ∧
    ∀ k, k < n → lines[k]? = some
      (decodeText s.cfg (a + 4 * BitVec.ofNat 32 k) (m.read32 (a + 4 * BitVec.ofNat 32 k)),
        decide (classify (a + 4 * BitVec.ofNat 32 k) (m.read32 (a + 4 * BitVec.ofNat 32 k)) = .illegal))

/-! ## The build parameters -/

/-- What R10 derives: a printable sentinel that does not begin with a lower-case letter differs from every
recognised line, whatever the column width. The recommended defaults (log 2) are such. -/
def Obligations.FirstLetterMakesASentinelLegal : Prop :=
  (∀ cfg : Config, cfg.wf = true → cfg.sentinelDistinct = true → LegalConfig cfg) ∧
    LegalConfig Config.default
end

