-- ==== Sys2Proof/Laws/Decode.lean ====
section
/-! SUPPORT. The fields of an assembled word, and the word assembled from its own fields. -/

namespace Sys2Proof

section Fields
variable (f7 : BitVec 7) (rs2 rs1 : BitVec 5) (f3 : BitVec 3) (rd : BitVec 5) (op : BitVec 7)

/-- The bits of an R-shaped word, from the format table of R62. -/
theorem rType_getLsbD (j : Nat) : (rType f7 rs2 rs1 f3 rd op).getLsbD j =
    (if j < 7 then op.getLsbD j else if j < 12 then rd.getLsbD (j - 7)
      else if j < 15 then f3.getLsbD (j - 12) else if j < 20 then rs1.getLsbD (j - 15)
      else if j < 25 then rs2.getLsbD (j - 20) else f7.getLsbD (j - 25)) := by
  unfold rType
  simp only [BitVec.getLsbD_cast, BitVec.getLsbD_append]
  repeat' split
  all_goals first | omega | congr 1

@[simp] theorem opcode_rType : Field.opcode (rType f7 rs2 rs1 f3 rd op) = op := by
  apply BitVec.eq_of_getLsbD_eq; intro j hj
  simp [Field.opcode, rType_getLsbD, hj]

@[simp] theorem rd_rType : Field.rd (rType f7 rs2 rs1 f3 rd op) = rd := by
  apply BitVec.eq_of_getLsbD_eq; intro j hj
  have : 7 + j < 12 := by omega
  simp [Field.rd, rType_getLsbD, hj, this]

@[simp] theorem funct3_rType : Field.funct3 (rType f7 rs2 rs1 f3 rd op) = f3 := by
  apply BitVec.eq_of_getLsbD_eq; intro j hj
  have : 12 + j < 15 := by omega
  have : ¬ 12 + j < 7 := by omega
  simp [Field.funct3, rType_getLsbD, *]

@[simp] theorem rs1_rType : Field.rs1 (rType f7 rs2 rs1 f3 rd op) = rs1 := by
  apply BitVec.eq_of_getLsbD_eq; intro j hj
  have : 15 + j < 20 := by omega
  have : ¬ 15 + j < 7 := by omega
  have : ¬ 15 + j < 12 := by omega
  simp [Field.rs1, rType_getLsbD, *]

@[simp] theorem zimm_rType : Field.zimm (rType f7 rs2 rs1 f3 rd op) = rs1 := rs1_rType f7 rs2 rs1 f3 rd op

@[simp] theorem rs2_rType : Field.rs2 (rType f7 rs2 rs1 f3 rd op) = rs2 := by
  apply BitVec.eq_of_getLsbD_eq; intro j hj
  have : 20 + j < 25 := by omega
  have : ¬ 20 + j < 7 := by omega
  have : ¬ 20 + j < 12 := by omega
  have : ¬ 20 + j < 15 := by omega
  simp [Field.rs2, rType_getLsbD, *]

@[simp] theorem funct7_rType : Field.funct7 (rType f7 rs2 rs1 f3 rd op) = f7 := by
  apply BitVec.eq_of_getLsbD_eq; intro j hj
  have : ¬ 25 + j < 7 := by omega
  have : ¬ 25 + j < 12 := by omega
  have : ¬ 25 + j < 15 := by omega
  have : ¬ 25 + j < 20 := by omega
  simp [Field.funct7, rType_getLsbD, *]

end Fields

/-- The fields of R56 to R61 are the whole word. -/
theorem rType_fields (w : Word) :
    rType (Field.funct7 w) (Field.rs2 w) (Field.rs1 w) (Field.funct3 w) (Field.rd w) (Field.opcode w) = w := by
  apply BitVec.eq_of_getLsbD_eq; intro j hj
  simp only [rType_getLsbD, Field.funct7, Field.rs2, Field.rs1, Field.funct3, Field.rd, Field.opcode,
    BitVec.getLsbD_extractLsb']
  repeat' split
  all_goals grind

/-! ## The immediates and their ranges -/

theorem csr_eq_append (w : Word) : Field.csr w = Field.funct7 w ++ Field.rs2 w := by
  apply BitVec.eq_of_getLsbD_eq; intro j hj
  simp only [Field.csr, Field.funct7, Field.rs2, BitVec.getLsbD_extractLsb', BitVec.getLsbD_append]
  split <;> grind

@[simp] theorem csr_iType (hi : BitVec 12) (rs1 : BitVec 5) (f3 : BitVec 3) (rd : BitVec 5) (op : BitVec 7) :
    Field.csr (iType hi rs1 f3 rd op) = hi := by
  rw [csr_eq_append, iType, funct7_rType, rs2_rType]
  apply BitVec.eq_of_getLsbD_eq; intro j hj
  simp only [BitVec.getLsbD_extractLsb', BitVec.getLsbD_append]
  split <;> grind

/-- The low `n` bits of a 32-bit value, read as signed. -/
theorem toInt_low (v : Word) {n : Nat} (h : n ≤ 32) : (v.extractLsb' 0 n).toInt = v.toInt.bmod (2 ^ n) := by
  rw [BitVec.toInt_extractLsb', BitVec.toInt_eq_toNat_bmod, Int.bmod_bmod_of_dvd (Nat.pow_dvd_pow 2 h)]
  rfl

/-- A value of an `n`-bit signed field is the sign extension of its low `n` bits. -/
theorem signExtend_low_eq {v : Word} {n : Nat} (h : n ≤ 32)
    (hv : -(((2 ^ n : Nat) : Int) / 2) ≤ v.toInt ∧ v.toInt < (((2 ^ n : Nat) : Int) + 1) / 2) :
    (v.extractLsb' 0 n).signExtend 32 = v := by
  apply BitVec.eq_of_toInt_eq
  rw [BitVec.toInt_signExtend_of_le h, toInt_low v h, Int.bmod_eq_of_le hv.1 hv.2]

/-- Sign extension from `n` bits stays in the range of an `n`-bit signed field. -/
theorem signExtend_range {n : Nat} (x : BitVec n) (h : n ≤ 32) :
    -(2 : Int) ^ (n - 1) ≤ (x.signExtend 32).toInt ∧ (x.signExtend 32).toInt < (2 : Int) ^ (n - 1) := by
  rw [BitVec.toInt_signExtend_of_le h]
  exact ⟨BitVec.le_toInt x, BitVec.toInt_lt⟩

theorem fitsImm12_iff (v : Word) : fitsImm12 v = true ↔ (v.extractLsb' 0 12).signExtend 32 = v := by
  unfold fitsImm12
  rw [decide_eq_true_iff]
  constructor
  · intro h
    exact signExtend_low_eq (by decide) (by norm_num; omega)
  · intro h
    have := signExtend_range (v.extractLsb' 0 12) (by decide)
    rw [h] at this
    norm_num at this
    omega

theorem bit0_eq_false_iff_even (v : Word) : v.getLsbD 0 = false ↔ v.toInt % 2 = 0 := by
  have := BitVec.toInt_eq_toNat_cond v
  rw [BitVec.getLsbD, Nat.testBit_zero, decide_eq_false_iff_not]
  split at this <;> omega

theorem fitsImmB_iff (v : Word) : fitsImmB v = true ↔
    (v.extractLsb' 0 13).signExtend 32 = v ∧ v.getLsbD 0 = false := by
  unfold fitsImmB
  rw [decide_eq_true_iff]
  rw [bit0_eq_false_iff_even]
  constructor
  · intro h
    exact ⟨signExtend_low_eq (by decide) (by norm_num; omega), h.2.2⟩
  · rintro ⟨h, h2⟩
    have := signExtend_range (v.extractLsb' 0 13) (by decide)
    rw [h] at this
    norm_num at this
    omega

theorem fitsImmJ_iff (v : Word) : fitsImmJ v = true ↔
    (v.extractLsb' 0 21).signExtend 32 = v ∧ v.getLsbD 0 = false := by
  unfold fitsImmJ
  rw [decide_eq_true_iff]
  rw [bit0_eq_false_iff_even]
  constructor
  · intro h
    exact ⟨signExtend_low_eq (by decide) (by norm_num; omega), h.2.2⟩
  · rintro ⟨h, h2⟩
    have := signExtend_range (v.extractLsb' 0 21) (by decide)
    rw [h] at this
    norm_num at this
    omega

/-! ## The masks of the opcode map (R99) as fields -/

theorem mask_opcode (w : Word) : w &&& 0x0000007f#32 = rType 0 0 0 0 0 (Field.opcode w) := by
  apply BitVec.eq_of_getLsbD_eq; intro j hj
  simp only [rType_getLsbD, BitVec.getLsbD_and, Field.opcode, BitVec.getLsbD_extractLsb']
  interval_cases j <;> simp

theorem mask_funct3 (w : Word) :
    w &&& 0x0000707f#32 = rType 0 0 0 (Field.funct3 w) 0 (Field.opcode w) := by
  apply BitVec.eq_of_getLsbD_eq; intro j hj
  simp only [rType_getLsbD, BitVec.getLsbD_and, Field.opcode, Field.funct3, BitVec.getLsbD_extractLsb']
  interval_cases j <;> simp

theorem mask_funct7 (w : Word) :
    w &&& 0xfe00707f#32 = rType (Field.funct7 w) 0 0 (Field.funct3 w) 0 (Field.opcode w) := by
  apply BitVec.eq_of_getLsbD_eq; intro j hj
  simp only [rType_getLsbD, BitVec.getLsbD_and, Field.opcode, Field.funct3, Field.funct7,
    BitVec.getLsbD_extractLsb']
  interval_cases j <;> simp

theorem covers_of_opcode {r : Row} {w : Word} {op : BitVec 7} (hm : r.mask = 0x0000007f#32)
    (hp : r.pattern = rType 0 0 0 0 0 op) (ho : Field.opcode w = op) : r.covers w = true := by
  rw [Row.covers, hm, hp, mask_opcode, ho, beq_self_eq_true]

theorem covers_of_funct3 {r : Row} {w : Word} {op : BitVec 7} {f3 : BitVec 3} (hm : r.mask = 0x0000707f#32)
    (hp : r.pattern = rType 0 0 0 f3 0 op) (ho : Field.opcode w = op) (h3 : Field.funct3 w = f3) :
    r.covers w = true := by
  rw [Row.covers, hm, hp, mask_funct3, ho, h3, beq_self_eq_true]

theorem covers_of_funct7 {r : Row} {w : Word} {op : BitVec 7} {f3 : BitVec 3} {f7 : BitVec 7}
    (hm : r.mask = 0xfe00707f#32) (hp : r.pattern = rType f7 0 0 f3 0 op) (ho : Field.opcode w = op)
    (h3 : Field.funct3 w = f3) (h7 : Field.funct7 w = f7) : r.covers w = true := by
  rw [Row.covers, hm, hp, mask_funct7, ho, h3, h7, beq_self_eq_true]

/-- A U-shaped word as an R-shaped one. -/
theorem uType_eq_rType (imm20 : BitVec 20) (rd : BitVec 5) (op : BitVec 7) :
    uType imm20 rd op = rType (imm20.extractLsb' 13 7) (imm20.extractLsb' 8 5) (imm20.extractLsb' 3 5)
      (imm20.extractLsb' 0 3) rd op := by
  apply BitVec.eq_of_getLsbD_eq; intro j hj
  simp only [rType_getLsbD, uType, BitVec.getLsbD_cast, BitVec.getLsbD_append, BitVec.getLsbD_extractLsb']
  repeat' split
  all_goals grind

@[simp] theorem opcode_uType (imm20 : BitVec 20) (rd : BitVec 5) (op : BitVec 7) :
    Field.opcode (uType imm20 rd op) = op := by
  rw [uType_eq_rType, opcode_rType]

@[simp] theorem rd_uType (imm20 : BitVec 20) (rd : BitVec 5) (op : BitVec 7) :
    Field.rd (uType imm20 rd op) = rd := by
  rw [uType_eq_rType, rd_rType]

@[simp] theorem imm20_uType (imm20 : BitVec 20) (rd : BitVec 5) (op : BitVec 7) :
    Field.imm20 (uType imm20 rd op) = imm20 := by
  apply BitVec.eq_of_getLsbD_eq; intro j hj
  simp only [Field.imm20, uType, BitVec.getLsbD_cast, BitVec.getLsbD_append, BitVec.getLsbD_extractLsb']
  repeat' split
  all_goals grind

/-! ## The bits of the immediates (R63, R64, R65, R67), and the immediates of assembled words -/

theorem immI_getLsbD (w : Word) {j : Nat} (hj : j < 32) :
    (Field.immI w).getLsbD j = if j < 12 then w.getLsbD (20 + j) else w.getLsbD 31 := by
  simp only [Field.immI, BitVec.getLsbD_signExtend, BitVec.getLsbD_extractLsb', BitVec.msb_eq_getLsbD_last]
  split <;> simp [*]

theorem immS_getLsbD (w : Word) {j : Nat} (hj : j < 32) : (Field.immS w).getLsbD j =
    if j < 5 then w.getLsbD (7 + j) else if j < 12 then w.getLsbD (20 + j) else w.getLsbD 31 := by
  simp only [Field.immS, BitVec.getLsbD_signExtend, BitVec.getLsbD_extractLsb', BitVec.msb_eq_getLsbD_last,
    BitVec.getLsbD_append]
  interval_cases j <;> simp

theorem immB_getLsbD (w : Word) {j : Nat} (hj : j < 32) : (Field.immB w).getLsbD j =
    if j < 1 then false else if j < 5 then w.getLsbD (7 + j) else if j < 11 then w.getLsbD (20 + j)
      else if j < 12 then w.getLsbD 7 else w.getLsbD 31 := by
  simp only [Field.immB, BitVec.getLsbD_signExtend, BitVec.getLsbD_extractLsb', BitVec.msb_eq_getLsbD_last,
    BitVec.getLsbD_append]
  interval_cases j <;> simp

theorem immJ_getLsbD (w : Word) {j : Nat} (hj : j < 32) : (Field.immJ w).getLsbD j =
    if j < 1 then false else if j < 11 then w.getLsbD (20 + j) else if j < 12 then w.getLsbD 20
      else if j < 20 then w.getLsbD j else w.getLsbD 31 := by
  simp only [Field.immJ, BitVec.getLsbD_signExtend, BitVec.getLsbD_extractLsb', BitVec.msb_eq_getLsbD_last,
    BitVec.getLsbD_append]
  interval_cases j <;> simp

/-- The low five bits of the I immediate are the bits of `rs2` (R69). -/
theorem shamt_eq_rs2 (w : Word) : Field.shamt w = Field.rs2 w := by
  apply BitVec.eq_of_getLsbD_eq; intro j hj
  rw [Field.shamt, Field.rs2, BitVec.getLsbD_extractLsb', BitVec.getLsbD_extractLsb', Nat.zero_add,
    immI_getLsbD w (by omega), if_pos (by omega)]

theorem immI_iType {v : Word} (h : fitsImm12 v = true) (rs1 : BitVec 5) (f3 : BitVec 3) (rd : BitVec 5)
    (op : BitVec 7) : Field.immI (iType (v.extractLsb' 0 12) rs1 f3 rd op) = v := by
  show (Field.csr _).signExtend 32 = v
  rw [csr_iType]; exact (fitsImm12_iff v).mp h

theorem immS_sType {v : Word} (h : fitsImm12 v = true) (rs2 rs1 : BitVec 5) (f3 : BitVec 3) (op : BitVec 7) :
    Field.immS (sType v rs2 rs1 f3 op) = v := by
  have e : Field.funct7 (sType v rs2 rs1 f3 op) ++ Field.rd (sType v rs2 rs1 f3 op) = v.extractLsb' 0 12 := by
    rw [sType, funct7_rType, rd_rType]
    apply BitVec.eq_of_getLsbD_eq; intro j hj
    simp only [BitVec.getLsbD_extractLsb', BitVec.getLsbD_append]; split <;> grind
  show BitVec.signExtend 32 (Field.funct7 _ ++ Field.rd _) = v
  rw [e]; exact (fitsImm12_iff v).mp h

theorem immB_bType {v : Word} (h : fitsImmB v = true) (rs2 rs1 : BitVec 5) (f3 : BitVec 3) (op : BitVec 7) :
    Field.immB (bType v rs2 rs1 f3 op) = v := by
  obtain ⟨e, z⟩ := (fitsImmB_iff v).mp h
  unfold Field.immB
  rw [← e]; congr 1; rw [e]
  simp only [BitVec.getLsbD_eq_getElem, show 0 < 32 by decide] at z
  apply BitVec.eq_of_getLsbD_eq; intro j hj
  simp only [BitVec.getLsbD_extractLsb', BitVec.getLsbD_append, bType, rType_getLsbD]
  interval_cases j <;> simp [z]

theorem immJ_jType {v : Word} (h : fitsImmJ v = true) (rd : BitVec 5) (op : BitVec 7) :
    Field.immJ (jType v rd op) = v := by
  obtain ⟨e, z⟩ := (fitsImmJ_iff v).mp h
  unfold Field.immJ
  rw [← e]; congr 1; rw [e]
  simp only [BitVec.getLsbD_eq_getElem, show 0 < 32 by decide] at z
  apply BitVec.eq_of_getLsbD_eq; intro j hj
  simp only [BitVec.getLsbD_extractLsb', BitVec.getLsbD_append, jType, uType, BitVec.getLsbD_cast]
  interval_cases j <;> simp [z]

end Sys2Proof
end

