-- ==== Sys2Proof/Laws/State.lean ====
section
/-! SUPPORT. One lemma per field per update of the state. -/

namespace Sys2Proof.Machine

@[simp] theorem State.present_cfg (s : State) (a w : Word) : (s.present a w).cfg = s.cfg := rfl
@[simp] theorem State.present_address (s : State) (a w : Word) : (s.present a w).address = a := rfl
@[simp] theorem State.present_word (s : State) (a w : Word) : (s.present a w).word = w := rfl
@[simp] theorem State.present_text (s : State) (a w : Word) : (s.present a w).text = s.text := rfl
@[simp] theorem State.present_illegal (s : State) (a w : Word) : (s.present a w).illegal = s.illegal := rfl
@[simp] theorem State.present_decoded (s : State) (a w : Word) : (s.present a w).decoded = s.decoded := rfl

@[simp] theorem State.drive_cfg (s : State) (d : DecodedInsn) : (s.drive d).cfg = s.cfg := rfl
@[simp] theorem State.drive_address (s : State) (d : DecodedInsn) : (s.drive d).address = s.address := rfl
@[simp] theorem State.drive_word (s : State) (d : DecodedInsn) : (s.drive d).word = s.word := rfl
@[simp] theorem State.drive_text (s : State) (d : DecodedInsn) : (s.drive d).text = render s.cfg d := rfl
@[simp] theorem State.drive_illegal (s : State) (d : DecodedInsn) : (s.drive d).illegal = illegalFlag d := rfl
@[simp] theorem State.drive_decoded (s : State) (d : DecodedInsn) : (s.drive d).decoded = d := rfl

@[simp] theorem State.takeIllegal_cfg (s : State) : s.takeIllegal.cfg = s.cfg := rfl
@[simp] theorem State.takeIllegal_address (s : State) : s.takeIllegal.address = s.address := rfl
@[simp] theorem State.takeIllegal_word (s : State) : s.takeIllegal.word = s.word := rfl
@[simp] theorem State.takeIllegal_text (s : State) : s.takeIllegal.text = s.cfg.illegalText := rfl
@[simp] theorem State.takeIllegal_illegal (s : State) : s.takeIllegal.illegal = true := rfl
@[simp] theorem State.takeIllegal_decoded (s : State) : s.takeIllegal.decoded = .illegal := rfl

@[simp] theorem State.withFetchWord_cfg (s : State) (n w : Nat) : (s.withFetchWord n w).cfg = s.cfg := rfl
@[simp] theorem State.withFetchWord_address (s : State) (n w : Nat) :
    (s.withFetchWord n w).address = s.address := rfl
@[simp] theorem State.withFetchWord_word (s : State) (n w : Nat) :
    (s.withFetchWord n w).word = BitVec.ofNat 32 (w % 2 ^ n) := rfl
@[simp] theorem State.withFetchWord_text (s : State) (n w : Nat) : (s.withFetchWord n w).text = s.text := rfl
@[simp] theorem State.withFetchWord_illegal (s : State) (n w : Nat) :
    (s.withFetchWord n w).illegal = s.illegal := rfl
@[simp] theorem State.withFetchWord_decoded (s : State) (n w : Nat) :
    (s.withFetchWord n w).decoded = s.decoded := rfl

end Sys2Proof.Machine
end

