-- ==== Sys2Proof/Laws/Exec.lean ====
section
/-! SUPPORT. What an instruction, and a step, can do: they drive the outputs from one decoded value and
do nothing else. -/

namespace Sys2Proof.Machine

/-- The inversion lemma of `exec`: every instruction ends in a next state, in which only the outputs
are driven. -/
theorem exec_drives (i : Instr) (s : State) : ∃ d, exec i s = .next (s.drive d) := by
  cases i <;> exact ⟨_, rfl⟩

theorem step_of_decode_ok {s : State} {i : Instr} (h : decode s.word = .ok i) : step s = exec i s := by
  rw [step, h]

theorem step_of_decode_error {s : State} {r : Reject} (h : decode s.word = .error r) :
    step s = .next s.takeIllegal := by
  rw [step, h]

/-- The inversion lemma of `step`. -/
theorem step_drives (s : State) : ∃ d, step s = .next (s.drive d) := by
  cases h : decode s.word with
  | ok i => rw [step_of_decode_ok h]; exact exec_drives i s
  | error r => exact ⟨.illegal, step_of_decode_error h⟩

end Sys2Proof.Machine
end

