-- ==== Sys2Proof/Laws/Memory.lean ====
section
/-! SUPPORT. The bench's memory: a write keeps the canonical form, a read after a write, and a write
leaves every other byte alone. -/

namespace Sys2Proof.Machine

theorem Memory.risingFrom_mono {lo lo' : Nat} (h : lo' ≤ lo) :
    ∀ {m : Memory}, Memory.risingFrom lo m = true → Memory.risingFrom lo' m = true
  | [], _ => rfl
  | c :: m, hm => by
    simp only [Memory.risingFrom, Bool.and_eq_true, decide_eq_true_eq] at hm ⊢
    exact ⟨⟨by omega, hm.1.2⟩, hm.2⟩

theorem Memory.writeByte_risingFrom {lo : Nat} (a : Word) (b : Byte) (hlo : lo ≤ a.toNat) :
    ∀ {m : Memory}, Memory.risingFrom lo m = true → Memory.risingFrom lo (m.writeByte a b) = true
  | [], _ => by
    have := a.isLt
    simp only [Memory.writeByte, Memory.risingFrom, Bool.and_eq_true, decide_eq_true_eq]
    exact ⟨⟨hlo, this⟩, trivial⟩
  | c :: m, hm => by
    have := a.isLt
    simp only [Memory.risingFrom, Bool.and_eq_true, decide_eq_true_eq] at hm
    unfold Memory.writeByte
    split
    · simp only [Memory.risingFrom, Bool.and_eq_true, decide_eq_true_eq]
      exact ⟨⟨hlo, by omega⟩, ⟨by omega, hm.1.2⟩, hm.2⟩
    · split
      · simp only [Memory.risingFrom, Bool.and_eq_true, decide_eq_true_eq]
        exact ⟨⟨hlo, by omega⟩, by simpa [*] using hm.2⟩
      · simp only [Memory.risingFrom, Bool.and_eq_true, decide_eq_true_eq]
        exact ⟨hm.1, Memory.writeByte_risingFrom a b (by omega) hm.2⟩

/-- A write keeps the canonical form. -/
theorem Memory.writeByte_wf {m : Memory} (a : Word) (b : Byte) (h : m.wf = true) :
    (m.writeByte a b).wf = true :=
  Memory.writeByte_risingFrom a b (Nat.zero_le _) h

/-- Loading an image keeps the canonical form. -/
theorem Memory.load_wf : ∀ {m : Memory} (a : Word) (bs : List Byte), m.wf = true → (m.load a bs).wf = true
  | _, _, [], h => h
  | _, a, b :: bs, h => Memory.load_wf (a + 1) bs (Memory.writeByte_wf a b h)

@[simp] theorem Memory.readByte_writeByte_self (a : Word) (b : Byte) :
    ∀ m : Memory, (m.writeByte a b).readByte a = some b
  | [] => by simp [Memory.writeByte, Memory.readByte]
  | c :: m => by
    unfold Memory.writeByte
    split
    · simp [Memory.readByte]
    · split
      · simp [Memory.readByte]
      · simp [Memory.readByte, *, Memory.readByte_writeByte_self a b m]

theorem Memory.readByte_writeByte_ne {a a' : Word} (b : Byte) (h : a' ≠ a) :
    ∀ m : Memory, (m.writeByte a b).readByte a' = m.readByte a'
  | [] => by
    have : a.toNat ≠ a'.toNat := fun e => h (BitVec.eq_of_toNat_eq e.symm)
    simp [Memory.writeByte, Memory.readByte, this]
  | c :: m => by
    have : a.toNat ≠ a'.toNat := fun e => h (BitVec.eq_of_toNat_eq e.symm)
    unfold Memory.writeByte
    split
    · simp [Memory.readByte, this]
    · split
      · simp [Memory.readByte, *]
      · simp [Memory.readByte, Memory.readByte_writeByte_ne b h m]

end Sys2Proof.Machine
end

