-- ==== Sys2Proof/Laws/Operands.lean ====
section
/-! SUPPORT. Lengths and characters of the formatted operands. -/

namespace Sys2Proof.Machine

@[simp] theorem hexDigits_length (n v : Nat) : (hexDigits n v).length = n := by
  induction n generalizing v with
  | zero => rfl
  | succ n ih => simp [hexDigits, ih]

/-- R83: `0x` and exactly `n` digits. -/
@[simp] theorem hexN_length (n v : Nat) : (hexN n v).length = n + 2 := by
  simp [hexN]

theorem decDigits_of_lt_ten {f n : Nat} (h : n < 10) : decDigits f n = [digitChar n] := by
  cases f with
  | zero => simp [decDigits, Nat.mod_eq_of_lt h]
  | succ f => simp [decDigits, h]

theorem decDigits_of_ten_le {f n : Nat} (h : 10 ≤ n) :
    decDigits (f + 1) n = decDigits f (n / 10) ++ [digitChar (n % 10)] := by
  simp [decDigits, Nat.not_lt.mpr h]

/-- Fuel beyond the value changes nothing. -/
theorem decDigits_fuel {n : Nat} : ∀ {f g : Nat}, n ≤ f → n ≤ g → decDigits f n = decDigits g n := by
  induction n using Nat.strongRecOn with
  | ind n ih =>
    intro f g hf hg
    by_cases h : n < 10
    · rw [decDigits_of_lt_ten h, decDigits_of_lt_ten h]
    · obtain ⟨f', rfl⟩ := Nat.exists_eq_add_of_le' (show 1 ≤ f by omega)
      obtain ⟨g', rfl⟩ := Nat.exists_eq_add_of_le' (show 1 ≤ g by omega)
      rw [decDigits_of_ten_le (by omega), decDigits_of_ten_le (by omega),
        ih (n / 10) (by omega) (show n / 10 ≤ f' by omega) (show n / 10 ≤ g' by omega)]

theorem decu_of_lt_ten {n : Nat} (h : n < 10) : decu n = [digitChar n] := decDigits_of_lt_ten h

/-- The recursion of the decimal numeral. -/
theorem decu_of_ten_le {n : Nat} (h : 10 ≤ n) : decu n = decu (n / 10) ++ [digitChar (n % 10)] := by
  obtain ⟨f, rfl⟩ := Nat.exists_eq_add_of_le' (show 1 ≤ n by omega)
  rw [decu, decDigits_of_ten_le h, decu, decDigits_fuel (show (f + 1) / 10 ≤ f by omega) (Nat.le_refl _)]

theorem decu_ne_nil (n : Nat) : decu n ≠ [] := by
  by_cases h : n < 10
  · simp [decu_of_lt_ten h]
  · simp [decu_of_ten_le (Nat.not_lt.mp h)]

/-- A numeral below `10 ^ k` has at most `k` digits. -/
theorem decu_length_le : ∀ {k n : Nat}, n < 10 ^ (k + 1) → (decu n).length ≤ k + 1
  | 0, n, h => by simp [decu_of_lt_ten (by simpa using h)]
  | k + 1, n, h => by
    by_cases hn : n < 10
    · simp [decu_of_lt_ten hn]
    · have : n / 10 < 10 ^ (k + 1) := by
        rw [Nat.div_lt_iff_lt_mul (by decide)]; simpa [pow_succ] using h
      simpa [decu_of_ten_le (Nat.not_lt.mp hn)] using decu_length_le this

/-- A register name has two or three characters (R81). -/
theorem reg_length_le (r : RegIdx) : (reg r).length ≤ 3 := by
  have : (decu r.toNat).length ≤ 2 := decu_length_le (by have := r.isLt; omega)
  simp only [reg, List.length_cons]
  omega

theorem pad_length (cfg : Config) (m : Text) : (pad cfg m).length = max cfg.mnemonicWidth m.length := by
  simp [pad]; omega

@[simp] theorem line2_length (cfg : Config) (m a b : Text) :
    (line2 cfg m a b).length = max cfg.mnemonicWidth m.length + a.length + 1 + b.length := by
  simp [line2, pad_length]; omega

@[simp] theorem line3_length (cfg : Config) (m a b c : Text) :
    (line3 cfg m a b c).length =
      max cfg.mnemonicWidth m.length + a.length + 1 + b.length + 1 + c.length := by
  simp [line3, pad_length]; omega

/-- A line with operands is at least as wide as the mnemonic's column (R84, R85). -/
theorem mnemonicWidth_le_render_length (cfg : Config) {d : DecodedInsn}
    (hi : d ≠ .illegal) (hc : d ≠ .ecall) (hb : d ≠ .ebreak) :
    cfg.mnemonicWidth ≤ (render cfg d).length := by
  cases d <;> first
    | contradiction
    | (simp [render, renderUpper, renderJal, renderJalr, renderCsrReg, renderCsrImm, renderAluReg,
        renderAluImm, renderShift, renderLoad, renderStore, renderBranch]; omega)

end Sys2Proof.Machine
end

