-- ==== Sys2Proof/Laws/PerInstr.lean ====
section
/-! SUPPORT. Per instruction: the encoding of an instruction has the match bits of its own row of the
opcode map (R99). -/

namespace Sys2Proof.Laws.RowMatch

/-- The word of the instruction, under the mask of its mnemonic's row, is the row's match. -/
def Statement (i : Instr) : Prop := i.row.covers (encode i) = true

theorem lui (rd : RegIdx) (imm20 : BitVec 20) : Statement (.lui rd imm20) :=
  covers_of_opcode rfl rfl (opcode_uType _ _ _)

theorem auipc (rd : RegIdx) (imm20 : BitVec 20) : Statement (.auipc rd imm20) :=
  covers_of_opcode rfl rfl (opcode_uType _ _ _)

theorem jal (rd : RegIdx) (off : Word) : Statement (.jal rd off) :=
  covers_of_opcode rfl rfl (opcode_uType _ _ _)

theorem jalr (rd rs1 : RegIdx) (f3 : BitVec 3) (imm : Word) : Statement (.jalr rd rs1 f3 imm) :=
  covers_of_opcode rfl rfl (opcode_rType _ _ _ _ _ _)

theorem ecall : Statement .ecall := rfl

theorem ebreak : Statement .ebreak := rfl

theorem csrrw (rd : RegIdx) (csr : CsrIdx) (rs1 : RegIdx) : Statement (.csrrw rd csr rs1) :=
  covers_of_funct3 rfl rfl (opcode_rType _ _ _ _ _ _) (funct3_rType _ _ _ _ _ _)

theorem csrrs (rd : RegIdx) (csr : CsrIdx) (rs1 : RegIdx) : Statement (.csrrs rd csr rs1) :=
  covers_of_funct3 rfl rfl (opcode_rType _ _ _ _ _ _) (funct3_rType _ _ _ _ _ _)

theorem csrrc (rd : RegIdx) (csr : CsrIdx) (rs1 : RegIdx) : Statement (.csrrc rd csr rs1) :=
  covers_of_funct3 rfl rfl (opcode_rType _ _ _ _ _ _) (funct3_rType _ _ _ _ _ _)

theorem csrrwi (rd : RegIdx) (csr : CsrIdx) (zimm : BitVec 5) : Statement (.csrrwi rd csr zimm) :=
  covers_of_funct3 rfl rfl (opcode_rType _ _ _ _ _ _) (funct3_rType _ _ _ _ _ _)

theorem csrrsi (rd : RegIdx) (csr : CsrIdx) (zimm : BitVec 5) : Statement (.csrrsi rd csr zimm) :=
  covers_of_funct3 rfl rfl (opcode_rType _ _ _ _ _ _) (funct3_rType _ _ _ _ _ _)

theorem csrrci (rd : RegIdx) (csr : CsrIdx) (zimm : BitVec 5) : Statement (.csrrci rd csr zimm) :=
  covers_of_funct3 rfl rfl (opcode_rType _ _ _ _ _ _) (funct3_rType _ _ _ _ _ _)

theorem add (rd rs1 rs2 : RegIdx) : Statement (.add rd rs1 rs2) :=
  covers_of_funct7 rfl rfl (opcode_rType _ _ _ _ _ _) (funct3_rType _ _ _ _ _ _)
    (funct7_rType _ _ _ _ _ _)

theorem sub (rd rs1 rs2 : RegIdx) : Statement (.sub rd rs1 rs2) :=
  covers_of_funct7 rfl rfl (opcode_rType _ _ _ _ _ _) (funct3_rType _ _ _ _ _ _)
    (funct7_rType _ _ _ _ _ _)

theorem sll (rd rs1 rs2 : RegIdx) (f7 : BitVec 7) : Statement (.sll rd rs1 rs2 f7) :=
  covers_of_funct3 rfl rfl (opcode_rType _ _ _ _ _ _) (funct3_rType _ _ _ _ _ _)

theorem slt (rd rs1 rs2 : RegIdx) (f7 : BitVec 7) : Statement (.slt rd rs1 rs2 f7) :=
  covers_of_funct3 rfl rfl (opcode_rType _ _ _ _ _ _) (funct3_rType _ _ _ _ _ _)

theorem sltu (rd rs1 rs2 : RegIdx) (f7 : BitVec 7) : Statement (.sltu rd rs1 rs2 f7) :=
  covers_of_funct3 rfl rfl (opcode_rType _ _ _ _ _ _) (funct3_rType _ _ _ _ _ _)

theorem xor (rd rs1 rs2 : RegIdx) (f7 : BitVec 7) : Statement (.xor rd rs1 rs2 f7) :=
  covers_of_funct3 rfl rfl (opcode_rType _ _ _ _ _ _) (funct3_rType _ _ _ _ _ _)

theorem srl (rd rs1 rs2 : RegIdx) : Statement (.srl rd rs1 rs2) :=
  covers_of_funct7 rfl rfl (opcode_rType _ _ _ _ _ _) (funct3_rType _ _ _ _ _ _)
    (funct7_rType _ _ _ _ _ _)

theorem sra (rd rs1 rs2 : RegIdx) : Statement (.sra rd rs1 rs2) :=
  covers_of_funct7 rfl rfl (opcode_rType _ _ _ _ _ _) (funct3_rType _ _ _ _ _ _)
    (funct7_rType _ _ _ _ _ _)

theorem or (rd rs1 rs2 : RegIdx) (f7 : BitVec 7) : Statement (.or rd rs1 rs2 f7) :=
  covers_of_funct3 rfl rfl (opcode_rType _ _ _ _ _ _) (funct3_rType _ _ _ _ _ _)

theorem and (rd rs1 rs2 : RegIdx) (f7 : BitVec 7) : Statement (.and rd rs1 rs2 f7) :=
  covers_of_funct3 rfl rfl (opcode_rType _ _ _ _ _ _) (funct3_rType _ _ _ _ _ _)

theorem addi (rd rs1 : RegIdx) (imm : Word) : Statement (.addi rd rs1 imm) :=
  covers_of_funct3 rfl rfl (opcode_rType _ _ _ _ _ _) (funct3_rType _ _ _ _ _ _)

theorem slti (rd rs1 : RegIdx) (imm : Word) : Statement (.slti rd rs1 imm) :=
  covers_of_funct3 rfl rfl (opcode_rType _ _ _ _ _ _) (funct3_rType _ _ _ _ _ _)

theorem sltiu (rd rs1 : RegIdx) (imm : Word) : Statement (.sltiu rd rs1 imm) :=
  covers_of_funct3 rfl rfl (opcode_rType _ _ _ _ _ _) (funct3_rType _ _ _ _ _ _)

theorem xori (rd rs1 : RegIdx) (imm : Word) : Statement (.xori rd rs1 imm) :=
  covers_of_funct3 rfl rfl (opcode_rType _ _ _ _ _ _) (funct3_rType _ _ _ _ _ _)

theorem ori (rd rs1 : RegIdx) (imm : Word) : Statement (.ori rd rs1 imm) :=
  covers_of_funct3 rfl rfl (opcode_rType _ _ _ _ _ _) (funct3_rType _ _ _ _ _ _)

theorem andi (rd rs1 : RegIdx) (imm : Word) : Statement (.andi rd rs1 imm) :=
  covers_of_funct3 rfl rfl (opcode_rType _ _ _ _ _ _) (funct3_rType _ _ _ _ _ _)

theorem slli (rd rs1 : RegIdx) (shamt : BitVec 5) (f7 : BitVec 7) : Statement (.slli rd rs1 shamt f7) :=
  covers_of_funct3 rfl rfl (opcode_rType _ _ _ _ _ _) (funct3_rType _ _ _ _ _ _)

theorem srli (rd rs1 : RegIdx) (shamt : BitVec 5) : Statement (.srli rd rs1 shamt) :=
  covers_of_funct7 rfl rfl (opcode_rType _ _ _ _ _ _) (funct3_rType _ _ _ _ _ _)
    (funct7_rType _ _ _ _ _ _)

theorem srai (rd rs1 : RegIdx) (shamt : BitVec 5) : Statement (.srai rd rs1 shamt) :=
  covers_of_funct7 rfl rfl (opcode_rType _ _ _ _ _ _) (funct3_rType _ _ _ _ _ _)
    (funct7_rType _ _ _ _ _ _)

theorem lb (rd rs1 : RegIdx) (imm : Word) : Statement (.lb rd rs1 imm) :=
  covers_of_funct3 rfl rfl (opcode_rType _ _ _ _ _ _) (funct3_rType _ _ _ _ _ _)

theorem lh (rd rs1 : RegIdx) (imm : Word) : Statement (.lh rd rs1 imm) :=
  covers_of_funct3 rfl rfl (opcode_rType _ _ _ _ _ _) (funct3_rType _ _ _ _ _ _)

theorem lw (rd rs1 : RegIdx) (imm : Word) : Statement (.lw rd rs1 imm) :=
  covers_of_funct3 rfl rfl (opcode_rType _ _ _ _ _ _) (funct3_rType _ _ _ _ _ _)

theorem lbu (rd rs1 : RegIdx) (imm : Word) : Statement (.lbu rd rs1 imm) :=
  covers_of_funct3 rfl rfl (opcode_rType _ _ _ _ _ _) (funct3_rType _ _ _ _ _ _)

theorem lhu (rd rs1 : RegIdx) (imm : Word) : Statement (.lhu rd rs1 imm) :=
  covers_of_funct3 rfl rfl (opcode_rType _ _ _ _ _ _) (funct3_rType _ _ _ _ _ _)

theorem sb (rs2 rs1 : RegIdx) (imm : Word) : Statement (.sb rs2 rs1 imm) :=
  covers_of_funct3 rfl rfl (opcode_rType _ _ _ _ _ _) (funct3_rType _ _ _ _ _ _)

theorem sh (rs2 rs1 : RegIdx) (imm : Word) : Statement (.sh rs2 rs1 imm) :=
  covers_of_funct3 rfl rfl (opcode_rType _ _ _ _ _ _) (funct3_rType _ _ _ _ _ _)

theorem sw (rs2 rs1 : RegIdx) (imm : Word) : Statement (.sw rs2 rs1 imm) :=
  covers_of_funct3 rfl rfl (opcode_rType _ _ _ _ _ _) (funct3_rType _ _ _ _ _ _)

theorem beq (rs1 rs2 : RegIdx) (off : Word) : Statement (.beq rs1 rs2 off) :=
  covers_of_funct3 rfl rfl (opcode_rType _ _ _ _ _ _) (funct3_rType _ _ _ _ _ _)

theorem bne (rs1 rs2 : RegIdx) (off : Word) : Statement (.bne rs1 rs2 off) :=
  covers_of_funct3 rfl rfl (opcode_rType _ _ _ _ _ _) (funct3_rType _ _ _ _ _ _)

theorem blt (rs1 rs2 : RegIdx) (off : Word) : Statement (.blt rs1 rs2 off) :=
  covers_of_funct3 rfl rfl (opcode_rType _ _ _ _ _ _) (funct3_rType _ _ _ _ _ _)

theorem bge (rs1 rs2 : RegIdx) (off : Word) : Statement (.bge rs1 rs2 off) :=
  covers_of_funct3 rfl rfl (opcode_rType _ _ _ _ _ _) (funct3_rType _ _ _ _ _ _)

theorem bltu (rs1 rs2 : RegIdx) (off : Word) : Statement (.bltu rs1 rs2 off) :=
  covers_of_funct3 rfl rfl (opcode_rType _ _ _ _ _ _) (funct3_rType _ _ _ _ _ _)

theorem bgeu (rs1 rs2 : RegIdx) (off : Word) : Statement (.bgeu rs1 rs2 off) :=
  covers_of_funct3 rfl rfl (opcode_rType _ _ _ _ _ _) (funct3_rType _ _ _ _ _ _)

end Sys2Proof.Laws.RowMatch
end

