-- ==== Sys2Proof/Tests/Slice0.lean ====
section
/-! SUPPORT. Tests. Every expected value is the spec's own: a worked example of files 40 to 48, a row of
spec/95_test_vectors.md, or a rule's own example. -/

namespace Sys2Proof.Tests

open Sys2Proof Sys2Proof.Machine

/-! ## Helpers -/

/-- The block with a pair on its inputs, with the default parameters. -/
def pair (a w : Word) : State := State.reset.present a w

/-- The line and the flag that one step shows. -/
def shown (s : State) : Option (Text × Bool) :=
  match step s with
  | .next t => some (t.text, t.illegal)
  | .fault _ => none
  | .refused _ => none

/-- The flag that one step shows. -/
def illegalOf (s : State) : Bool := (shown s).any Prod.snd

/-- The bytes of `lui x10,0x12000`, opcode first, across the top of the address space (R40, R22). -/
def image : Memory := Memory.load [] 0xfffffffe [0x37, 0x05, 0x00, 0x12]

/-! ## Well-formedness: an ill-formed instruction for each check -/

theorem test_wf_refuses_jal :
    (Instr.jal 0 1).wf = false ∧ (Instr.jal 0 1048576).wf = false ∧ (Instr.jal 0 (-1048578)).wf = false := by
  decide

theorem test_wf_refuses_jalr : (Instr.jalr 0 0 0 2048).wf = false ∧ (Instr.jalr 0 0 0 (-2049)).wf = false := by
  decide

theorem test_wf_refuses_alu_immediates :
    (Instr.addi 0 0 2048).wf = false ∧ (Instr.slti 0 0 (-2049)).wf = false ∧
    (Instr.sltiu 0 0 4095).wf = false ∧ (Instr.xori 0 0 2048).wf = false ∧
    (Instr.ori 0 0 (-2049)).wf = false ∧ (Instr.andi 0 0 2048).wf = false := by decide

theorem test_wf_refuses_loads :
    (Instr.lb 0 0 2048).wf = false ∧ (Instr.lh 0 0 (-2049)).wf = false ∧ (Instr.lw 0 0 2048).wf = false ∧
    (Instr.lbu 0 0 (-2049)).wf = false ∧ (Instr.lhu 0 0 2048).wf = false := by decide

theorem test_wf_refuses_stores :
    (Instr.sb 0 0 2048).wf = false ∧ (Instr.sh 0 0 (-2049)).wf = false ∧ (Instr.sw 0 0 2048).wf = false := by
  decide

theorem test_wf_refuses_branches :
    (Instr.beq 0 0 1).wf = false ∧ (Instr.bne 0 0 4096).wf = false ∧ (Instr.blt 0 0 (-4098)).wf = false ∧
    (Instr.bge 0 0 3).wf = false ∧ (Instr.bltu 0 0 4096).wf = false ∧ (Instr.bgeu 0 0 (-4097)).wf = false := by
  decide

/-! ## Decoding: a word of each instruction, its bits written out by the format table of R62 -/

theorem test_decode_lui :
    decode (0b00010010001101000101#20 ++ 0b01010#5 ++ 0b0110111#7) =
    .ok (Instr.lui 10 0x12345) := by decide

theorem test_decode_auipc :
    decode (0b10101011110011011110#20 ++ 0b00101#5 ++ 0b0010111#7) =
    .ok (Instr.auipc 5 0xabcde) := by decide

theorem test_decode_jal :
    decode (0b1#1 ++ 0b1111111000#10 ++ 0b1#1 ++ 0b11111111#8 ++ 0b00000#5 ++ 0b1101111#7) =
    .ok (Instr.jal 0 (-16)) := by decide

theorem test_decode_jalr :
    decode (0b000000001000#12 ++ 0b00110#5 ++ 0b101#3 ++ 0b00001#5 ++ 0b1100111#7) =
    .ok (Instr.jalr 1 6 0b101#3 8) := by decide

theorem test_decode_ecall :
    decode (0b000000000000#12 ++ 0b00000#5 ++ 0b000#3 ++ 0b00000#5 ++ 0b1110011#7) =
    .ok Instr.ecall := by decide

theorem test_decode_ebreak :
    decode (0b000000000001#12 ++ 0b00000#5 ++ 0b000#3 ++ 0b00000#5 ++ 0b1110011#7) =
    .ok Instr.ebreak := by decide

theorem test_decode_csrrw :
    decode (0b111111111111#12 ++ 0b00010#5 ++ 0b001#3 ++ 0b11111#5 ++ 0b1110011#7) =
    .ok (Instr.csrrw 31 0xfff 2) := by decide

theorem test_decode_csrrs :
    decode (0b001100000000#12 ++ 0b00010#5 ++ 0b010#3 ++ 0b00001#5 ++ 0b1110011#7) =
    .ok (Instr.csrrs 1 0x300 2) := by decide

theorem test_decode_csrrc :
    decode (0b001100000000#12 ++ 0b00010#5 ++ 0b011#3 ++ 0b00001#5 ++ 0b1110011#7) =
    .ok (Instr.csrrc 1 0x300 2) := by decide

theorem test_decode_csrrwi :
    decode (0b011111000000#12 ++ 0b11111#5 ++ 0b101#3 ++ 0b00101#5 ++ 0b1110011#7) =
    .ok (Instr.csrrwi 5 0x7c0 31) := by decide

theorem test_decode_csrrsi :
    decode (0b001100000000#12 ++ 0b00010#5 ++ 0b110#3 ++ 0b00001#5 ++ 0b1110011#7) =
    .ok (Instr.csrrsi 1 0x300 2) := by decide

theorem test_decode_csrrci :
    decode (0b001100000000#12 ++ 0b01000#5 ++ 0b111#3 ++ 0b00110#5 ++ 0b1110011#7) =
    .ok (Instr.csrrci 6 0x300 8) := by decide

theorem test_decode_add :
    decode (0b0000000#7 ++ 0b00011#5 ++ 0b00010#5 ++ 0b000#3 ++ 0b00001#5 ++ 0b0110011#7) =
    .ok (Instr.add 1 2 3) := by decide

theorem test_decode_sub :
    decode (0b0100000#7 ++ 0b01100#5 ++ 0b01011#5 ++ 0b000#3 ++ 0b01010#5 ++ 0b0110011#7) =
    .ok (Instr.sub 10 11 12) := by decide

theorem test_decode_sll :
    decode (0b0100000#7 ++ 0b01100#5 ++ 0b01011#5 ++ 0b001#3 ++ 0b01010#5 ++ 0b0110011#7) =
    .ok (Instr.sll 10 11 12 0b0100000#7) := by decide

theorem test_decode_slt :
    decode (0b0100000#7 ++ 0b01100#5 ++ 0b01011#5 ++ 0b010#3 ++ 0b01010#5 ++ 0b0110011#7) =
    .ok (Instr.slt 10 11 12 0b0100000#7) := by decide

theorem test_decode_sltu :
    decode (0b0100000#7 ++ 0b01100#5 ++ 0b01011#5 ++ 0b011#3 ++ 0b01010#5 ++ 0b0110011#7) =
    .ok (Instr.sltu 10 11 12 0b0100000#7) := by decide

theorem test_decode_xor :
    decode (0b0100000#7 ++ 0b01100#5 ++ 0b01011#5 ++ 0b100#3 ++ 0b01010#5 ++ 0b0110011#7) =
    .ok (Instr.xor 10 11 12 0b0100000#7) := by decide

theorem test_decode_srl :
    decode (0b0000000#7 ++ 0b01100#5 ++ 0b01010#5 ++ 0b101#3 ++ 0b01101#5 ++ 0b0110011#7) =
    .ok (Instr.srl 13 10 12) := by decide

theorem test_decode_sra :
    decode (0b0100000#7 ++ 0b01100#5 ++ 0b01010#5 ++ 0b101#3 ++ 0b01110#5 ++ 0b0110011#7) =
    .ok (Instr.sra 14 10 12) := by decide

theorem test_decode_or :
    decode (0b0100000#7 ++ 0b01100#5 ++ 0b01011#5 ++ 0b110#3 ++ 0b01010#5 ++ 0b0110011#7) =
    .ok (Instr.or 10 11 12 0b0100000#7) := by decide

theorem test_decode_and :
    decode (0b0100000#7 ++ 0b01100#5 ++ 0b01011#5 ++ 0b111#3 ++ 0b01010#5 ++ 0b0110011#7) =
    .ok (Instr.and 10 11 12 0b0100000#7) := by decide

theorem test_decode_addi :
    decode (0b100000000000#12 ++ 0b00010#5 ++ 0b000#3 ++ 0b00001#5 ++ 0b0010011#7) =
    .ok (Instr.addi 1 2 (-2048)) := by decide

theorem test_decode_slti :
    decode (0b100000000000#12 ++ 0b00010#5 ++ 0b010#3 ++ 0b00001#5 ++ 0b0010011#7) =
    .ok (Instr.slti 1 2 (-2048)) := by decide

theorem test_decode_sltiu :
    decode (0b100000000000#12 ++ 0b00010#5 ++ 0b011#3 ++ 0b00001#5 ++ 0b0010011#7) =
    .ok (Instr.sltiu 1 2 (-2048)) := by decide

theorem test_decode_xori :
    decode (0b100000000000#12 ++ 0b00010#5 ++ 0b100#3 ++ 0b00001#5 ++ 0b0010011#7) =
    .ok (Instr.xori 1 2 (-2048)) := by decide

theorem test_decode_ori :
    decode (0b100000000000#12 ++ 0b00010#5 ++ 0b110#3 ++ 0b00001#5 ++ 0b0010011#7) =
    .ok (Instr.ori 1 2 (-2048)) := by decide

theorem test_decode_andi :
    decode (0b100000000000#12 ++ 0b00010#5 ++ 0b111#3 ++ 0b00001#5 ++ 0b0010011#7) =
    .ok (Instr.andi 1 2 (-2048)) := by decide

theorem test_decode_slli :
    decode (0b0100000#7 ++ 0b00111#5 ++ 0b00010#5 ++ 0b001#3 ++ 0b00001#5 ++ 0b0010011#7) =
    .ok (Instr.slli 1 2 7 0b0100000#7) := by decide

theorem test_decode_srli :
    decode (0b0000000#7 ++ 0b11111#5 ++ 0b00010#5 ++ 0b101#3 ++ 0b00001#5 ++ 0b0010011#7) =
    .ok (Instr.srli 1 2 31) := by decide

theorem test_decode_srai :
    decode (0b0100000#7 ++ 0b00100#5 ++ 0b01011#5 ++ 0b101#3 ++ 0b01010#5 ++ 0b0010011#7) =
    .ok (Instr.srai 10 11 4) := by decide

theorem test_decode_lb :
    decode (0b111111111100#12 ++ 0b00010#5 ++ 0b000#3 ++ 0b00001#5 ++ 0b0000011#7) =
    .ok (Instr.lb 1 2 (-4)) := by decide

theorem test_decode_lh :
    decode (0b100000000000#12 ++ 0b00101#5 ++ 0b001#3 ++ 0b11100#5 ++ 0b0000011#7) =
    .ok (Instr.lh 28 5 (-2048)) := by decide

theorem test_decode_lw :
    decode (0b111111111100#12 ++ 0b00010#5 ++ 0b010#3 ++ 0b00001#5 ++ 0b0000011#7) =
    .ok (Instr.lw 1 2 (-4)) := by decide

theorem test_decode_lbu :
    decode (0b111111111100#12 ++ 0b00010#5 ++ 0b100#3 ++ 0b00001#5 ++ 0b0000011#7) =
    .ok (Instr.lbu 1 2 (-4)) := by decide

theorem test_decode_lhu :
    decode (0b111111111100#12 ++ 0b00010#5 ++ 0b101#3 ++ 0b00001#5 ++ 0b0000011#7) =
    .ok (Instr.lhu 1 2 (-4)) := by decide

theorem test_decode_sb :
    decode (0b1111111#7 ++ 0b00011#5 ++ 0b00010#5 ++ 0b000#3 ++ 0b11100#5 ++ 0b0100011#7) =
    .ok (Instr.sb 3 2 (-4)) := by decide

theorem test_decode_sh :
    decode (0b1111111#7 ++ 0b00111#5 ++ 0b00101#5 ++ 0b001#3 ++ 0b11110#5 ++ 0b0100011#7) =
    .ok (Instr.sh 7 5 (-2)) := by decide

theorem test_decode_sw :
    decode (0b1111111#7 ++ 0b00011#5 ++ 0b00010#5 ++ 0b010#3 ++ 0b11100#5 ++ 0b0100011#7) =
    .ok (Instr.sw 3 2 (-4)) := by decide

theorem test_decode_beq :
    decode (0b0#1 ++ 0b111111#6 ++ 0b00010#5 ++ 0b00001#5 ++ 0b000#3 ++ 0b1111#4 ++ 0b1#1 ++ 0b1100011#7) =
    .ok (Instr.beq 1 2 4094) := by decide

theorem test_decode_bne :
    decode (0b0#1 ++ 0b000000#6 ++ 0b00010#5 ++ 0b00001#5 ++ 0b001#3 ++ 0b0000#4 ++ 0b1#1 ++ 0b1100011#7) =
    .ok (Instr.bne 1 2 2048) := by decide

theorem test_decode_blt :
    decode (0b1#1 ++ 0b111111#6 ++ 0b00010#5 ++ 0b00001#5 ++ 0b100#3 ++ 0b1000#4 ++ 0b1#1 ++ 0b1100011#7) =
    .ok (Instr.blt 1 2 (-16)) := by decide

theorem test_decode_bge :
    decode (0b1#1 ++ 0b000000#6 ++ 0b01010#5 ++ 0b01011#5 ++ 0b101#3 ++ 0b0000#4 ++ 0b0#1 ++ 0b1100011#7) =
    .ok (Instr.bge 11 10 (-4096)) := by decide

theorem test_decode_bltu :
    decode (0b0#1 ++ 0b000000#6 ++ 0b00001#5 ++ 0b00010#5 ++ 0b110#3 ++ 0b0000#4 ++ 0b1#1 ++ 0b1100011#7) =
    .ok (Instr.bltu 2 1 2048) := by decide

theorem test_decode_bgeu :
    decode (0b1#1 ++ 0b000000#6 ++ 0b00001#5 ++ 0b00010#5 ++ 0b111#3 ++ 0b0000#4 ++ 0b1#1 ++ 0b1100011#7) =
    .ok (Instr.bgeu 2 1 (-2048)) := by decide

/-- Words that no instruction has (the examples of R118, R181 and R149), by the level that rejects them. -/
theorem test_decode_rejects :
    decode 0x0ff0000f = .error .opcode ∧ decode 0x00008073 = .error .system ∧
    decode 0x00413083 = .error .load ∧ decode 0x00313223 = .error .store ∧
    decode 0x0020a863 = .error .btype ∧ decode 0x02c58533 = .error .rtype ∧
    decode 0x02515093 = .error .aluImm := by decide

/-! ## The line of each instruction, by one step -/

theorem test_line_lui :
    shown (pair 0x00001000 0x12345537) = some ("lui     x10,0x12345".toList, false) := by decide

theorem test_line_auipc :
    shown (pair 0x00000004 0xabcde297) = some ("auipc   x5,0xabcde".toList, false) := by decide

theorem test_line_jal :
    shown (pair 0x00000004 0xff1ff06f) = some ("jal     x0,0xfffffff4".toList, false) := by decide

theorem test_line_jalr :
    shown (pair 0x00000044 0x008350e7) = some ("jalr    x1,8(x6)".toList, false) := by decide

theorem test_line_ecall : shown (pair 0x8000003c 0x00000073) = some ("ecall".toList, false) := by decide

theorem test_line_ebreak : shown (pair 0x12345678 0x00100073) = some ("ebreak".toList, false) := by decide

theorem test_line_csrrw :
    shown (pair 0x00000000 0xfff11ff3) = some ("csrrw   x31,0xfff,x2".toList, false) := by decide

theorem test_line_csrrs :
    shown (pair 0x00000000 0x300120f3) = some ("csrrs   x1,0x300,x2".toList, false) := by decide

theorem test_line_csrrc :
    shown (pair 0x00000000 0x300130f3) = some ("csrrc   x1,0x300,x2".toList, false) := by decide

theorem test_line_csrrwi :
    shown (pair 0x00000000 0x7c0fd2f3) = some ("csrrwi  x5,0x7c0,31".toList, false) := by decide

theorem test_line_csrrsi :
    shown (pair 0x00000000 0x300160f3) = some ("csrrsi  x1,0x300,2".toList, false) := by decide

theorem test_line_csrrci :
    shown (pair 0x80000018 0x30047373) = some ("csrrci  x6,0x300,8".toList, false) := by decide

theorem test_line_add :
    shown (pair 0x00000000 0x003100b3) = some ("add     x1,x2,x3".toList, false) := by decide

theorem test_line_sub :
    shown (pair 0x00000000 0x40c58533) = some ("sub     x10,x11,x12".toList, false) := by decide

theorem test_line_sll :
    shown (pair 0x00000000 0x40c59533) = some ("sll     x10,x11,x12".toList, false) := by decide

theorem test_line_slt :
    shown (pair 0x00000000 0x40c5a533) = some ("slt     x10,x11,x12".toList, false) := by decide

theorem test_line_sltu :
    shown (pair 0x00000000 0x40c5b533) = some ("sltu    x10,x11,x12".toList, false) := by decide

theorem test_line_xor :
    shown (pair 0x00000000 0x40c5c533) = some ("xor     x10,x11,x12".toList, false) := by decide

theorem test_line_srl :
    shown (pair 0x0001004c 0x00c556b3) = some ("srl     x13,x10,x12".toList, false) := by decide

theorem test_line_sra :
    shown (pair 0x00010050 0x40c55733) = some ("sra     x14,x10,x12".toList, false) := by decide

theorem test_line_or :
    shown (pair 0x00000000 0x40c5e533) = some ("or      x10,x11,x12".toList, false) := by decide

theorem test_line_and :
    shown (pair 0x00000000 0x40c5f533) = some ("and     x10,x11,x12".toList, false) := by decide

theorem test_line_addi :
    shown (pair 0x00000000 0x80010093) = some ("addi    x1,x2,-2048".toList, false) := by decide

theorem test_line_slti :
    shown (pair 0x00000000 0x80012093) = some ("slti    x1,x2,-2048".toList, false) := by decide

theorem test_line_sltiu :
    shown (pair 0x00000000 0x80013093) = some ("sltiu   x1,x2,-2048".toList, false) := by decide

theorem test_line_xori :
    shown (pair 0x00000000 0x80014093) = some ("xori    x1,x2,-2048".toList, false) := by decide

theorem test_line_ori :
    shown (pair 0x00000000 0x80016093) = some ("ori     x1,x2,-2048".toList, false) := by decide

theorem test_line_andi :
    shown (pair 0x00000000 0x80017093) = some ("andi    x1,x2,-2048".toList, false) := by decide

theorem test_line_slli :
    shown (pair 0x00000000 0x40711093) = some ("slli    x1,x2,7".toList, false) := by decide

theorem test_line_srli :
    shown (pair 0x00000000 0x01f15093) = some ("srli    x1,x2,31".toList, false) := by decide

theorem test_line_srai :
    shown (pair 0x00000000 0x4045d513) = some ("srai    x10,x11,4".toList, false) := by decide

theorem test_line_lb :
    shown (pair 0x00000000 0xffc10083) = some ("lb      x1,-4(x2)".toList, false) := by decide

theorem test_line_lh :
    shown (pair 0x80000034 0x80029e03) = some ("lh      x28,-2048(x5)".toList, false) := by decide

theorem test_line_lw :
    shown (pair 0x00000000 0xffc12083) = some ("lw      x1,-4(x2)".toList, false) := by decide

theorem test_line_lbu :
    shown (pair 0x00000000 0xffc14083) = some ("lbu     x1,-4(x2)".toList, false) := by decide

theorem test_line_lhu :
    shown (pair 0x00000000 0xffc15083) = some ("lhu     x1,-4(x2)".toList, false) := by decide

theorem test_line_sb :
    shown (pair 0x00000000 0xfe310e23) = some ("sb      x3,-4(x2)".toList, false) := by decide

theorem test_line_sh :
    shown (pair 0x80000030 0xfe729f23) = some ("sh      x7,-2(x5)".toList, false) := by decide

theorem test_line_sw :
    shown (pair 0x00000000 0xfe312e23) = some ("sw      x3,-4(x2)".toList, false) := by decide

theorem test_line_beq :
    shown (pair 0x00001000 0x7e208fe3) = some ("beq     x1,x2,0x00001ffe".toList, false) := by decide

theorem test_line_bne :
    shown (pair 0x00001000 0x002090e3) = some ("bne     x1,x2,0x00001800".toList, false) := by decide

theorem test_line_blt :
    shown (pair 0x00000100 0xfe20c8e3) = some ("blt     x1,x2,0x000000f0".toList, false) := by decide

theorem test_line_bge :
    shown (pair 0x80000000 0x80a5d063) = some ("bge     x11,x10,0x7ffff000".toList, false) := by decide

theorem test_line_bltu :
    shown (pair 0x00001000 0x001160e3) = some ("bltu    x2,x1,0x00001800".toList, false) := by decide

theorem test_line_bgeu :
    shown (pair 0x00001000 0x801170e3) = some ("bgeu    x2,x1,0x00000800".toList, false) := by decide

/-- The source's own scenario of R180. -/
theorem test_line_illegal :
    shown (pair 0x00001234 0x00000000) = some ("ERROR: UNIMPLEMENTED INSTRUCTION".toList, true) := by decide

/-! ## Parameters, ports, reset, the host's side -/

/-- R84: a column narrower than the mnemonic does not cut it. -/
theorem test_narrow_column :
    decodeText { Config.default with mnemonicWidth := 4 } 0 0x300150f3 = "csrrwix1,0x300,2".toList := by decide

/-- R11: `TEXT_MAX` = 32 and a `text_len` of 6 bits with the defaults. -/
theorem test_text_max : textMax Config.default = 32 ∧ textLenWidth Config.default = 6 := by decide

/-- The port row of spec/95_test_vectors.md for `ebreak`. -/
theorem test_ports : ∃ t, step (pair 0 0x00100073) = .next t ∧ t.illegal = false ∧
    t.textLenPort.toNat = 6 ∧ t.textPort.toNat = 0x6b6165726265 := ⟨_, rfl, by decide, by decide, by decide⟩

/-- R40, with the bytes across the top of the address space. -/
theorem test_read32 : image.wf = true ∧ image.read32 0xfffffffe = 0x12000537 := by decide

/-- A listing of that one word (R211). -/
theorem test_listing : ∃ u, listing image 1 0xfffffffe State.reset =
    .next ([("lui     x10,0x12000".toList, false)], u) := ⟨_, rfl⟩

/-- The word that the host places for a row of the opcode table is the one that runs. -/
theorem test_fetch_word : shown (State.reset.withFetchWord 32 0x00100073) = some ("ebreak".toList, false) := by
  decide

/-! ## Witnesses: a concrete input meets the hypotheses of each statement, clause by clause -/

/-- Every evaluation of a pair answers a next state. -/
theorem runs (s : State) : ∃ t, step s = .next t :=
  let ⟨d, h⟩ := step_drives s
  ⟨s.drive d, h⟩

/-- The hypotheses on `opcode` and `funct3`; below, the other bits of the words are at their extremes. -/
def fits (w : Word) (op : BitVec 7) (f3 : BitVec 3) : Prop :=
  (pair 0 w).word.extractLsb' 0 7 = op ∧ (pair 0 w).word.extractLsb' 12 3 = f3

theorem witness_InstructionsChangeOutputsOnly :
    ∃ t, exec (.sw 31 31 (-2048)) (pair 0xfffffffc 0x81ffa023) = .next t := ⟨_, rfl⟩

theorem witness_StepRunsTheDecodedInstruction :
    decode (pair 0 0xffffffb7).word = .ok (.lui 31 0xfffff) ∧
    decode (pair 0xffffffff 0xffffffff).word = .error .opcode := by decide

theorem witness_PresentedInstructionRuns : (Instr.beq 0 31 (-4096)).wf = true := by decide

theorem witness_UpperImmediateWordsRender :
    (pair 0 0xffffffb7).word.extractLsb' 0 7 = 0b0110111#7 ∧
    (pair 0xfffff000 0x00000017).word.extractLsb' 0 7 = 0b0010111#7 := by decide

theorem witness_JalWordsRenderTheAbsoluteTarget :
    (pair 0xfffffffc 0x80000fef).word.extractLsb' 0 7 = 0b1101111#7 := by decide

theorem witness_JalrWordsRenderTheDisplacement :
    (pair 0 0xfffffe67).word.extractLsb' 0 7 = 0b1100111#7 := by decide

theorem witness_EnvironmentWordsAreExact :
    (pair 0 0x00000073).word = 0x00000073#32 ∧ (pair 0 0x00100073).word = 0x00100073#32 ∧
    (∃ t, step (pair 0 0x00200073) = .next t) ∧
    (fits 0x00008073 0b1110011#7 0b000#3 ∧ (pair 0 0x00008073).word ≠ 0x00000073#32 ∧
      (pair 0 0x00008073).word ≠ 0x00100073#32) := by
  unfold fits
  exact ⟨by decide, by decide, runs _, by decide⟩

theorem witness_CsrRegisterWordsRender :
    (pair 0 0x00001073).word.extractLsb' 0 7 = 0b1110011#7 ∧
    (pair 0 0x00001073).word.extractLsb' 12 3 = 0b001#3 ∧
    (pair 0 0xffffaff3).word.extractLsb' 0 7 = 0b1110011#7 ∧
    (pair 0 0xffffaff3).word.extractLsb' 12 3 = 0b010#3 ∧
    (pair 0 0xffffbff3).word.extractLsb' 0 7 = 0b1110011#7 ∧
    (pair 0 0xffffbff3).word.extractLsb' 12 3 = 0b011#3 := by decide

theorem witness_CsrImmediateWordsRender :
    (pair 0 0x00005073).word.extractLsb' 0 7 = 0b1110011#7 ∧
    (pair 0 0x00005073).word.extractLsb' 12 3 = 0b101#3 ∧
    (pair 0 0xffffeff3).word.extractLsb' 0 7 = 0b1110011#7 ∧
    (pair 0 0xffffeff3).word.extractLsb' 12 3 = 0b110#3 ∧
    (pair 0 0xfffffff3).word.extractLsb' 0 7 = 0b1110011#7 ∧
    (pair 0 0xfffffff3).word.extractLsb' 12 3 = 0b111#3 := by decide

theorem witness_RegisterAluWordsSelectedByFunct7 :
    (fits 0x00000033 0b0110011#7 0b000#3 ∧ (pair 0 0x00000033).word.extractLsb' 25 7 = 0b0000000#7) ∧
    (fits 0x41ff8fb3 0b0110011#7 0b000#3 ∧ (pair 0 0x41ff8fb3).word.extractLsb' 25 7 = 0b0100000#7) ∧
    (fits 0x00005033 0b0110011#7 0b101#3 ∧ (pair 0 0x00005033).word.extractLsb' 25 7 = 0b0000000#7) ∧
    (fits 0x41ffdfb3 0b0110011#7 0b101#3 ∧ (pair 0 0x41ffdfb3).word.extractLsb' 25 7 = 0b0100000#7) ∧
    (fits 0x02c58533 0b0110011#7 0b000#3 ∧ (pair 0 0x02c58533).word.extractLsb' 25 7 ≠ 0b0000000#7 ∧
      (pair 0 0x02c58533).word.extractLsb' 25 7 ≠ 0b0100000#7) ∧
    (fits 0xffffdfb3 0b0110011#7 0b101#3 ∧ (pair 0 0xffffdfb3).word.extractLsb' 25 7 ≠ 0b0000000#7 ∧
      (pair 0 0xffffdfb3).word.extractLsb' 25 7 ≠ 0b0100000#7) := by
  unfold fits; decide

theorem witness_RegisterAluWordsIgnoringFunct7 :
    fits 0xfffffb33 0b0110011#7 0b111#3 ∧ fits 0x00001033 0b0110011#7 0b001#3 ∧
    fits 0xffffafb3 0b0110011#7 0b010#3 ∧ fits 0x00003033 0b0110011#7 0b011#3 ∧
    fits 0xffffcfb3 0b0110011#7 0b100#3 ∧ fits 0x00006033 0b0110011#7 0b110#3 := by
  unfold fits; decide

theorem witness_ImmediateAluWordsRender :
    fits 0x80000013 0b0010011#7 0b000#3 ∧ fits 0x7ffffa13 0b0010011#7 0b111#3 ∧
    fits 0xffffaf93 0b0010011#7 0b010#3 ∧ fits 0x00003013 0b0010011#7 0b011#3 ∧
    fits 0x80004013 0b0010011#7 0b100#3 ∧ fits 0x00006013 0b0010011#7 0b110#3 := by
  unfold fits; decide

theorem witness_ShiftWordsRender :
    fits 0xffff9f93 0b0010011#7 0b001#3 ∧
    (fits 0x00005013 0b0010011#7 0b101#3 ∧ (pair 0 0x00005013).word.extractLsb' 25 7 = 0b0000000#7) ∧
    (fits 0x41ffdf93 0b0010011#7 0b101#3 ∧ (pair 0 0x41ffdf93).word.extractLsb' 25 7 = 0b0100000#7) ∧
    (fits 0x02515093 0b0010011#7 0b101#3 ∧ (pair 0 0x02515093).word.extractLsb' 25 7 ≠ 0b0000000#7 ∧
      (pair 0 0x02515093).word.extractLsb' 25 7 ≠ 0b0100000#7) := by
  unfold fits; decide

theorem witness_LoadWordsRender :
    fits 0x80000003 0b0000011#7 0b000#3 ∧ fits 0x7ff01003 0b0000011#7 0b001#3 ∧
    fits 0xffffaf83 0b0000011#7 0b010#3 ∧ fits 0x00004003 0b0000011#7 0b100#3 ∧
    fits 0x80005003 0b0000011#7 0b101#3 := by
  unfold fits; decide

theorem witness_StoreWordsRender :
    fits 0x80000023 0b0100011#7 0b000#3 ∧ fits 0x7e001fa3 0b0100011#7 0b001#3 ∧
    fits 0xffffafa3 0b0100011#7 0b010#3 := by
  unfold fits; decide

theorem witness_BranchWordsRenderTheAbsoluteTarget :
    fits 0x80000063 0b1100011#7 0b000#3 ∧ fits 0x7e001fe3 0b1100011#7 0b001#3 ∧
    fits 0xffffcfe3 0b1100011#7 0b100#3 ∧ fits 0x00005063 0b1100011#7 0b101#3 ∧
    fits 0x80006063 0b1100011#7 0b110#3 ∧ fits 0xffffffe3 0b1100011#7 0b111#3 := by
  unfold fits; decide

/-- `0x00200073` is none of the two SYSTEM words; the last row of the map covers `0xffffffe3`. -/
theorem witness_WordsOutsideTheMapGiveTheSentinel :
    (∀ r ∈ opcodeTable, (pair 0 0x00200073).word &&& r.mask ≠ r.pattern) ∧
    (Instr.bgeu 0 0 0).row ∈ opcodeTable ∧
    (pair 0 0xffffffe3).word &&& (Instr.bgeu 0 0 0).row.mask = (Instr.bgeu 0 0 0).row.pattern := by decide

/-- One word of each row of the table of R181 (its examples), and a recognised word. -/
theorem witness_IllegalWordsByLevel :
    illegalOf (pair 0 0x0000100f) = true ∧ illegalOf (pair 0 0x30200073) = true ∧
    illegalOf (pair 0 0x00413083) = true ∧ illegalOf (pair 0 0x00313223) = true ∧
    illegalOf (pair 0 0x0020a863) = true ∧ illegalOf (pair 0 0x02c5d533) = true ∧
    illegalOf (pair 0 0x02515093) = true ∧ illegalOf (pair 0 0x00100073) = false ∧
    ∃ t, step (pair 0 0x0000100f) = .next t :=
  ⟨by decide, by decide, by decide, by decide, by decide, by decide, by decide, by decide, runs _⟩

theorem witness_DecodeOfEncodeIsTheInstruction :
    (Instr.jal 31 1048574).wf = true ∧ (Instr.sb 31 31 (-2048)).wf = true ∧
    (Instr.bne 0 0 4094).wf = true ∧ (Instr.addi 0 31 2047).wf = true := by decide

theorem witness_EncodeOfDecodeIsTheWord : decode 0x800000ef#32 = .ok (.jal 1 (-1048576)) := by decide

theorem witness_ImmediateIIsTheSpecsBits :
    (-2048 : Int) ≤ (2047 : Word).toInt ∧ (2047 : Word).toInt ≤ 2047 ∧
      (0x7ff00013#32).extractLsb' 20 12 = (2047 : Word).extractLsb' 0 12 ∧
    (-2048 : Int) ≤ (-2048 : Word).toInt ∧ (-2048 : Word).toInt ≤ 2047 ∧
      (0x80000013#32).extractLsb' 20 12 = (-2048 : Word).extractLsb' 0 12 := by decide

theorem witness_ImmediateSIsTheSpecsBits :
    (-2048 : Int) ≤ (-2048 : Word).toInt ∧ (-2048 : Word).toInt ≤ 2047 ∧
    (0x80000023#32).extractLsb' 25 7 = (-2048 : Word).extractLsb' 5 7 ∧
    (0x80000023#32).extractLsb' 7 5 = (-2048 : Word).extractLsb' 0 5 := by decide

/-- The spec's example of R65: `0x80000063` holds -4096. -/
theorem witness_ImmediateBIsTheSpecsBits :
    (-4096 : Int) ≤ (-4096 : Word).toInt ∧ (-4096 : Word).toInt ≤ 4094 ∧ (-4096 : Word).toInt % 2 = 0 ∧
    (0x80000063#32).getLsbD 31 = (-4096 : Word).getLsbD 12 ∧
    (0x80000063#32).getLsbD 7 = (-4096 : Word).getLsbD 11 ∧
    (0x80000063#32).extractLsb' 25 6 = (-4096 : Word).extractLsb' 5 6 ∧
    (0x80000063#32).extractLsb' 8 4 = (-4096 : Word).extractLsb' 1 4 := by decide

theorem witness_ImmediateUIsTheSpecsBits :
    (-4096 : Word).toInt % 4096 = 0 ∧
    (0xfffff037#32).extractLsb' 12 20 = (-4096 : Word).extractLsb' 12 20 := by decide

/-- The spec's example of R67: `0xff1ff06f` holds -16. -/
theorem witness_ImmediateJIsTheSpecsBits :
    (-1048576 : Int) ≤ (-16 : Word).toInt ∧ (-16 : Word).toInt ≤ 1048574 ∧ (-16 : Word).toInt % 2 = 0 ∧
    (0xff1ff06f#32).getLsbD 31 = (-16 : Word).getLsbD 20 ∧
    (0xff1ff06f#32).extractLsb' 12 8 = (-16 : Word).extractLsb' 12 8 ∧
    (0xff1ff06f#32).getLsbD 20 = (-16 : Word).getLsbD 11 ∧
    (0xff1ff06f#32).extractLsb' 21 10 = (-16 : Word).extractLsb' 1 10 := by decide

/-- A word of each class, the illegal one where the class has one, and a word of each decoded shape. -/
theorem witness_MultiplexerFeedsTheDispatcher :
    ((0xfffff037#32).extractLsb' 0 7 ∈ [0x37#7, 0x17#7] ∧ (0x00000017#32).extractLsb' 0 7 ∈ [0x37#7, 0x17#7] ∧
      (0x80000fef#32).extractLsb' 0 7 = 0x6f#7 ∧
      (0x80010067#32).extractLsb' 0 7 ∈ [0x67#7, 0x03#7, 0x13#7] ∧
      (0x00413083#32).extractLsb' 0 7 ∈ [0x67#7, 0x03#7, 0x13#7] ∧
      (0x02515093#32).extractLsb' 0 7 ∈ [0x67#7, 0x03#7, 0x13#7] ∧
      (0x00313223#32).extractLsb' 0 7 = 0x23#7 ∧ (0x0020a863#32).extractLsb' 0 7 = 0x63#7 ∧
      (0x02c58533#32).extractLsb' 0 7 ∈ [0x33#7, 0x73#7] ∧ (0x00000073#32).extractLsb' 0 7 ∈ [0x33#7, 0x73#7] ∧
      (0xffffffff#32).extractLsb' 0 7 ∉
        [0x37#7, 0x17#7, 0x6f#7, 0x67#7, 0x73#7, 0x33#7, 0x13#7, 0x03#7, 0x23#7, 0x63#7]) ∧
    classify 0 0xfffff037 = .upper .lui 0 0xfffff ∧ classify 4 0xff1ff06f = .jal 0 0xfffffff4 ∧
    classify 0 0x800100e7 = .jalr 1 2 (-2048) ∧ classify 0 0xffc10083 = .load .lb 1 2 (-4) ∧
    classify 0 0x80010093 = .aluImm .addi 1 2 (-2048) ∧ classify 0 0x41f15093 = .shift .srai 1 2 31 ∧
    classify 0 0x81ffa023 = .store .sw 31 31 (-2048) ∧
    classify 0x1000 0x801170e3 = .branch .bgeu 2 1 0x800 := by decide

theorem witness_UnexaminedBitsAreTheOnlyOnesLost :
    recognised 0x40c59533 = true ∧ recognised 0x008350e7 = true ∧ recognised 0x00000073 = true := by decide

theorem witness_DecimalFormsReadBack :
    (decu 0).head? = some '0' ∧ (-1 : Int) < 0 ∧ (0 : Int) ≤ 0 := by decide

theorem witness_MnemonicsArePaddedNotTruncated :
    ({ Config.default with mnemonicWidth := 6 } : Config).mnemonicWidth ≤ "csrrwi".toList.length := by decide

theorem witness_TargetsAreTheWrappedSum :
    (∃ t, step (pair 0xfffffffc 0x0080006f) = .next t) ∧
    (pair 0xfffffffc 0x0080006f).word.extractLsb' 0 7 = 0b1101111#7 ∧
    (∃ t, step (pair 0xfffffffc 0x01fff463) = .next t ∧ t.illegal = false) ∧
    (pair 0xfffffffc 0x01fff463).word.extractLsb' 0 7 = 0b1100011#7 :=
  ⟨runs _, by decide, ⟨_, rfl, by decide⟩, by decide⟩

theorem witness_UpperImmediateLinesLoseNoBit :
    (∃ t, step (pair 0 0xfffff037) = .next t) ∧ (pair 0 0xfffff037).word.extractLsb' 0 7 = 0b0110111#7 ∧
    (∃ t, step (pair 0 0x00000f97) = .next t) ∧ (pair 0 0x00000f97).word.extractLsb' 0 7 = 0b0010111#7 :=
  ⟨runs _, by decide, runs _, by decide⟩

theorem witness_RecognisedLinesAreOneCleanLine :
    ∃ t, step (pair 0xffffffff 0x80010083) = .next t ∧ t.illegal = false := ⟨_, rfl, by decide⟩

theorem witness_EveryEvaluationCompletesWithALine : (pair 0 0xffffffff).cfg.illegalText ≠ [] := by decide

/-- The longest recognised line, from a state whose outputs are those of another pair. -/
theorem witness_StepKeepsTheInvariant :
    State.reset.cfg.wf = true ∧ ∃ t, step (State.reset.present 0xfffffffc 0x01fff463) = .next t :=
  ⟨by decide, runs _⟩

theorem witness_OutputsDependOnTheInputsAlone :
    ∃ t lines u v, step (State.reset.present 4 0xff1ff06f) = .next t ∧
      evaluate t [(0, 0)] = .next (lines, u) ∧ step (u.present 4 0xff1ff06f) = .next v :=
  ⟨_, _, _, _, rfl, rfl, rfl⟩

theorem witness_EvaluationIsIdempotent : ∃ t, step (pair 4 0xff1ff06f) = .next t := runs _

/-- The two clauses at their edges: a `jal` at another address, and a `lui` at another address. -/
theorem witness_AddressIsReadByJalAndBranchesOnly :
    (∃ t t', step (pair 0 0x0000006f) = .next t ∧
      step { pair 0 0x0000006f with address := 0xffffffff } = .next t' ∧ t'.text ≠ t.text) ∧
    (∃ t t', step (pair 0 0x00000537) = .next t ∧
      step { pair 0 0x00000537 with address := 0xffffffff } = .next t' ∧ t'.text = t.text) :=
  ⟨⟨_, _, rfl, rfl, by decide⟩, ⟨_, _, rfl, rfl, by decide⟩⟩

/-- R10: `ecall` is a text that a recognised word renders, so it is no sentinel. -/
theorem test_ecall_is_no_legal_sentinel :
    ¬ LegalConfig { Config.default with illegalText := ['e', 'c', 'a', 'l', 'l'] } :=
  fun h => h.2 0 0x00000073 (by decide) (by decide)

/-- R10: `illegal` begins with a lower-case letter and is legal all the same, since no line with operands is
shorter than the column of 8. -/
theorem test_illegal_is_a_legal_sentinel :
    LegalConfig { Config.default with illegalText := ['i', 'l', 'l', 'e', 'g', 'a', 'l'] } := by
  refine ⟨by decide, fun a w hi h => ?_⟩
  by_cases hc : classify a w = .ecall
  · rw [decodeText, hc] at h; revert h; decide
  by_cases hb : classify a w = .ebreak
  · rw [decodeText, hb] at h; revert h; decide
  · have := mnemonicWidth_le_render_length { Config.default with illegalText := ['i', 'l', 'l', 'e', 'g', 'a', 'l'] }
      hi hc hb
    rw [decodeText] at h
    rw [h] at this
    revert this; decide

/-- A recognised and an illegal word, with a legal sentinel that the first-letter test would refuse. -/
theorem witness_SentinelIsToldFromEveryLine :
    ∃ cfg, LegalConfig cfg ∧ cfg.sentinelDistinct = false ∧
      (∃ t, step { pair 0 0 with cfg := cfg } = .next t) ∧
      ∃ t, step { pair 0 0x00000073 with cfg := cfg } = .next t :=
  ⟨_, test_illegal_is_a_legal_sentinel, by decide, runs _, runs _⟩

/-- The default, and an upper-case sentinel as long as a line can be short. -/
theorem witness_FirstLetterMakesASentinelLegal :
    Config.default.wf = true ∧ Config.default.sentinelDistinct = true ∧
    (Config.mk 0 ['E']).wf = true ∧ (Config.mk 0 ['E']).sentinelDistinct = true := by decide

/-- The last byte of the line, and the first byte after it, of the port row for `ebreak`. -/
theorem witness_PortsCarryTheLine :
    (pair 0 0x00100073).cfg.wf = true ∧ (∃ t, step (pair 0 0x00100073) = .next t) ∧
    31 < textMax (pair 0 0x00100073).cfg :=
  ⟨by decide, runs _, by decide⟩

theorem witness_ReadIsLittleEndian :
    (image.readByte 0xfffffffe = some 0x37 ∧ image.readByte (0xfffffffe + 1) = some 0x05 ∧
      image.readByte (0xfffffffe + 2) = some 0x00 ∧ image.readByte (0xfffffffe + 3) = some 0x12) := by decide

end Sys2Proof.Tests
end

section
/-! SUPPORT. A step drives the decoded value that `classify` gives (R30), proved along the tree of R71
to R77, level by level. -/

namespace Sys2Proof.Machine

/-- The eight values of a `funct3` selector. -/
theorem funct3_cases (f3 : BitVec 3) :
    f3 = 0 ∨ f3 = 1 ∨ f3 = 2 ∨ f3 = 3 ∨ f3 = 4 ∨ f3 = 5 ∨ f3 = 6 ∨ f3 = 7 := by
  revert f3; decide

/-- A `funct7` selector is one of the two examined values or neither (R73, R74). -/
theorem funct7_cases (f7 : BitVec 7) :
    f7 = 0b0000000#7 ∨ f7 = 0b0100000#7 ∨ (f7 ≠ 0b0000000#7 ∧ f7 ≠ 0b0100000#7) := by
  tauto

theorem step_of_decodeSystem {s : State} (h : decode s.word = decodeSystem s.word) :
    step s = .next (s.drive (classifySystem s.word)) := by
  rw [step, h]
  unfold decodeSystem classifySystem
  by_cases hc : s.word = 0x00000073#32
  · rw [if_pos hc, if_pos hc]; rfl
  by_cases hb : s.word = 0x00100073#32
  · rw [if_neg hc, if_neg hc, if_pos hb, if_pos hb]; rfl
  rw [if_neg hc, if_neg hc, if_neg hb, if_neg hb]
  rcases funct3_cases (Field.funct3 s.word) with h3 | h3 | h3 | h3 | h3 | h3 | h3 | h3 <;>
    rw [h3] <;> rfl

theorem step_of_decodeRType {s : State} (h : decode s.word = decodeRType s.word) :
    step s = .next (s.drive (classifyRType s.word)) := by
  rw [step, h]
  unfold decodeRType classifyRType
  rcases funct3_cases (Field.funct3 s.word) with h3 | h3 | h3 | h3 | h3 | h3 | h3 | h3 <;>
    rcases funct7_cases (Field.funct7 s.word) with h7 | h7 | h7 <;>
    simp [h3, h7] <;> rfl

theorem step_of_decodeAluImm {s : State} (h : decode s.word = decodeAluImm s.word) :
    step s = .next (s.drive (classifyAluImm s.word)) := by
  rw [step, h]
  unfold decodeAluImm classifyAluImm
  rcases funct3_cases (Field.funct3 s.word) with h3 | h3 | h3 | h3 | h3 | h3 | h3 | h3 <;>
    rcases funct7_cases (Field.funct7 s.word) with h7 | h7 | h7 <;>
    simp [h3, h7] <;> rfl

theorem step_of_decodeLoad {s : State} (h : decode s.word = decodeLoad s.word) :
    step s = .next (s.drive (classifyLoad s.word)) := by
  rw [step, h]
  unfold decodeLoad classifyLoad
  rcases funct3_cases (Field.funct3 s.word) with h3 | h3 | h3 | h3 | h3 | h3 | h3 | h3 <;>
    rw [h3] <;> rfl

theorem step_of_decodeStore {s : State} (h : decode s.word = decodeStore s.word) :
    step s = .next (s.drive (classifyStore s.word)) := by
  rw [step, h]
  unfold decodeStore classifyStore
  rcases funct3_cases (Field.funct3 s.word) with h3 | h3 | h3 | h3 | h3 | h3 | h3 | h3 <;>
    rw [h3] <;> rfl

theorem step_of_decodeBranch {s : State} (h : decode s.word = decodeBranch s.word) :
    step s = .next (s.drive (classifyBranch s.address s.word)) := by
  rw [step, h]
  unfold decodeBranch classifyBranch
  rcases funct3_cases (Field.funct3 s.word) with h3 | h3 | h3 | h3 | h3 | h3 | h3 | h3 <;>
    rw [h3] <;> rfl

theorem step_eq_drive_classify (s : State) : step s = .next (s.drive (classify s.address s.word)) := by
  unfold classify
  split
  case h_1 h =>
    exact step_of_decode_ok (i := .lui (Field.rd s.word) (Field.imm20 s.word))
      (by simp [decode, classOf, h])
  case h_2 h =>
    exact step_of_decode_ok (i := .auipc (Field.rd s.word) (Field.imm20 s.word))
      (by simp [decode, classOf, h])
  case h_3 h =>
    exact step_of_decode_ok (i := .jal (Field.rd s.word) (Field.immJ s.word))
      (by simp [decode, classOf, h])
  case h_4 h =>
    exact step_of_decode_ok (i := .jalr (Field.rd s.word) (Field.rs1 s.word) (Field.funct3 s.word) (Field.immI s.word))
      (by simp [decode, classOf, h])
  case h_5 h => exact step_of_decodeSystem (by simp [decode, classOf, h])
  case h_6 h => exact step_of_decodeRType (by simp [decode, classOf, h])
  case h_7 h => exact step_of_decodeAluImm (by simp [decode, classOf, h])
  case h_8 h => exact step_of_decodeLoad (by simp [decode, classOf, h])
  case h_9 h => exact step_of_decodeStore (by simp [decode, classOf, h])
  case h_10 h => exact step_of_decodeBranch (by simp [decode, classOf, h])
  case h_11 => exact step_of_decode_error (r := .opcode) (by simp_all [decode, classOf])

end Sys2Proof.Machine
end

section
/-! SUPPORT. The immediates of a decoded value are in the range of R27, and the printed numerals have the
lengths that R11 counts. -/

namespace Sys2Proof.Machine

@[simp] theorem fitsImm12_immI (w : Word) : fitsImm12 (Field.immI w) = true := by
  have := signExtend_range (w.extractLsb' 20 12) (by decide)
  unfold fitsImm12 Field.immI
  rw [decide_eq_true_iff]
  omega

@[simp] theorem fitsImm12_immS (w : Word) : fitsImm12 (Field.immS w) = true := by
  have := signExtend_range (w.extractLsb' 25 7 ++ w.extractLsb' 7 5) (by decide)
  unfold fitsImm12 Field.immS
  rw [decide_eq_true_iff]
  omega

theorem immInRange_classifySystem (w : Word) : immInRange (classifySystem w) = true := by
  unfold classifySystem
  split_ifs
  · rfl
  · rfl
  · split <;> rfl

theorem immInRange_classifyRType (w : Word) : immInRange (classifyRType w) = true := by
  unfold classifyRType
  repeat' split
  all_goals rfl

theorem immInRange_classifyAluImm (w : Word) : immInRange (classifyAluImm w) = true := by
  unfold classifyAluImm
  repeat' split
  all_goals simp [immInRange]

theorem immInRange_classifyLoad (w : Word) : immInRange (classifyLoad w) = true := by
  unfold classifyLoad
  split <;> simp [immInRange]

theorem immInRange_classifyStore (w : Word) : immInRange (classifyStore w) = true := by
  unfold classifyStore
  split <;> simp [immInRange]

theorem immInRange_classifyBranch (a w : Word) : immInRange (classifyBranch a w) = true := by
  unfold classifyBranch
  split <;> rfl

/-- R27: whatever the word, a decoded immediate is in -2048 to 2047. -/
theorem immInRange_classify (a w : Word) : immInRange (classify a w) = true := by
  unfold classify
  split
  case h_4 => exact fitsImm12_immI w
  case h_5 => exact immInRange_classifySystem w
  case h_6 => exact immInRange_classifyRType w
  case h_7 => exact immInRange_classifyAluImm w
  case h_8 => exact immInRange_classifyLoad w
  case h_9 => exact immInRange_classifyStore w
  case h_10 => exact immInRange_classifyBranch a w
  all_goals rfl

/-- A five-bit number has at most two decimal digits. -/
theorem decu_length_le_two (x : BitVec 5) : (decu x.toNat).length ≤ 2 :=
  decu_length_le (by have := x.isLt; omega)

/-- A 12-bit immediate prints as at most a sign and four digits. -/
theorem dec_length_le {v : Word} (h : fitsImm12 v = true) : (dec v.toInt).length ≤ 5 := by
  simp only [fitsImm12, decide_eq_true_eq] at h
  unfold dec
  split
  · have : (decu (-v.toInt).toNat).length ≤ 4 := decu_length_le (by omega)
    rw [List.length_cons]; omega
  · have : (decu v.toInt.toNat).length ≤ 4 := decu_length_le (by omega)
    omega

theorem disp_length_le {v : Word} (base : RegIdx) (h : fitsImm12 v = true) : (disp v base).length ≤ 10 := by
  have := dec_length_le h
  have := reg_length_le base
  simp only [disp, List.length_append, List.length_cons, List.length_nil]
  omega

end Sys2Proof.Machine
end

section
/-! SUPPORT. The characters of a line: what an operand and a mnemonic are made of, and that a recognised
line (R85) begins with its mnemonic and ends with an operand. -/

namespace Sys2Proof.Machine

/-- A lower-case ASCII letter: the first character of every recognised line (R84). -/
def isLower (c : Char) : Bool := 'a' ≤ c && c ≤ 'z'

/-- A non-empty text of line characters without a space: what R81 to R86 give for an operand. -/
structure IsOperand (t : Text) : Prop where
  ne_nil : t ≠ []
  lineChars : t.all lineChar = true
  no_space : ' ' ∉ t

/-- A non-empty text of lower-case letters, no longer than `csrrwi` (R84). -/
structure IsMnemonic (m : Text) : Prop where
  ne_nil : m ≠ []
  lower : m.all isLower = true
  length_le : m.length ≤ 6

/-- A recognised line (R15, R85): line characters, the first one a lower-case letter, the last one no
space. -/
structure CleanLine (t : Text) : Prop where
  lineChars : t.all lineChar = true
  head_lower : ∃ c, t.head? = some c ∧ isLower c = true
  last_ne_space : t.getLast? ≠ some ' '

theorem lineChar_of_isLower {c : Char} (h : isLower c = true) : lineChar c = true := by
  simp only [isLower, Bool.and_eq_true] at h
  simp [lineChar, h]

theorem printable_of_lineChar {c : Char} (h : lineChar c = true) : printable c = true := by
  simp only [lineChar, Bool.or_eq_true, Bool.and_eq_true, decide_eq_true_eq, beq_iff_eq, Char.le_def,
    UInt32.le_iff_toNat_le] at h
  simp only [printable, Bool.and_eq_true, decide_eq_true_eq]
  rcases h with (((((h | h) | rfl) | rfl) | rfl) | rfl) | rfl
  · exact ⟨le_trans (by decide) h.1, le_trans h.2 (by decide)⟩
  · exact ⟨le_trans (by decide) h.1, le_trans h.2 (by decide)⟩
  all_goals decide

/-! ## Operands -/

theorem digitChar_mem (d : Nat) :
    digitChar d ∈ ['0', '1', '2', '3', '4', '5', '6', '7', '8', '9', 'a', 'b', 'c', 'd', 'e', 'f'] := by
  unfold digitChar
  rw [List.getD_eq_getElem?_getD]
  cases h : (['0', '1', '2', '3', '4', '5', '6', '7', '8', '9', 'a', 'b', 'c', 'd', 'e', 'f'] : Text)[d]? with
  | none => decide
  | some c => exact List.mem_of_getElem? h

theorem isOperand_singleton {c : Char} (h : lineChar c = true) (hs : c ≠ ' ') : IsOperand [c] where
  ne_nil := by simp
  lineChars := by simpa using h
  no_space := by simpa using hs.symm

theorem isOperand_digit (d : Nat) : IsOperand [digitChar d] := by
  have hd : ∀ c ∈ (['0', '1', '2', '3', '4', '5', '6', '7', '8', '9', 'a', 'b', 'c', 'd', 'e', 'f'] : Text),
      lineChar c = true ∧ c ≠ ' ' := by simp [lineChar]
  obtain ⟨h, hs⟩ := hd _ (digitChar_mem d)
  exact isOperand_singleton h hs

theorem IsOperand.append {t u : Text} (ht : IsOperand t) (hu : IsOperand u) : IsOperand (t ++ u) where
  ne_nil := by simp [ht.ne_nil]
  lineChars := by simp only [List.all_append, ht.lineChars, hu.lineChars, Bool.and_self]
  no_space := by simp [ht.no_space, hu.no_space]

theorem IsOperand.cons {c : Char} {t : Text} (h : lineChar c = true) (hs : c ≠ ' ') (ht : IsOperand t) :
    IsOperand (c :: t) :=
  (isOperand_singleton h hs).append ht

theorem isOperand_decu (n : Nat) : IsOperand (decu n) := by
  induction n using Nat.strongRecOn with
  | ind n ih =>
    by_cases h : n < 10
    · rw [decu_of_lt_ten h]
      exact isOperand_digit n
    · rw [decu_of_ten_le (by omega)]
      exact (ih (n / 10) (by omega)).append (isOperand_digit _)

theorem isOperand_dec (v : Int) : IsOperand (dec v) := by
  unfold dec
  split
  · exact (isOperand_decu _).cons (by decide) (by decide)
  · exact isOperand_decu _

theorem isOperand_cons_hexDigits {c : Char} (h : lineChar c = true) (hs : c ≠ ' ') (n v : Nat) :
    IsOperand (c :: hexDigits n v) := by
  induction n generalizing v with
  | zero => exact isOperand_singleton h hs
  | succ n ih => exact (ih (v / 16)).append (isOperand_digit _)

theorem isOperand_hexN (n v : Nat) : IsOperand (hexN n v) :=
  (isOperand_cons_hexDigits (by decide) (by decide) n _).cons (by decide) (by decide)

theorem isOperand_reg (r : RegIdx) : IsOperand (reg r) := (isOperand_decu _).cons (by decide) (by decide)

theorem isOperand_disp (v : Word) (base : RegIdx) : IsOperand (disp v base) :=
  ((isOperand_dec _).append ((isOperand_reg base).cons (c := '(') (by decide) (by decide))).append
    (isOperand_singleton (c := ')') (by decide) (by decide))

/-! ## Mnemonics -/

theorem isMnemonic_upperName (op : UpperOp) : IsMnemonic (upperName op) := by
  cases op <;> exact ⟨by decide, by decide, by decide⟩

theorem isMnemonic_csrRegName (op : CsrRegOp) : IsMnemonic (csrRegName op) := by
  cases op <;> exact ⟨by decide, by decide, by decide⟩

theorem isMnemonic_csrImmName (op : CsrImmOp) : IsMnemonic (csrImmName op) := by
  cases op <;> exact ⟨by decide, by decide, by decide⟩

theorem isMnemonic_aluRegName (op : AluRegOp) : IsMnemonic (aluRegName op) := by
  cases op <;> exact ⟨by decide, by decide, by decide⟩

theorem isMnemonic_aluImmName (op : AluImmOp) : IsMnemonic (aluImmName op) := by
  cases op <;> exact ⟨by decide, by decide, by decide⟩

theorem isMnemonic_shiftName (op : ShiftOp) : IsMnemonic (shiftName op) := by
  cases op <;> exact ⟨by decide, by decide, by decide⟩

theorem isMnemonic_loadName (op : LoadOp) : IsMnemonic (loadName op) := by
  cases op <;> exact ⟨by decide, by decide, by decide⟩

theorem isMnemonic_storeName (op : StoreOp) : IsMnemonic (storeName op) := by
  cases op <;> exact ⟨by decide, by decide, by decide⟩

theorem isMnemonic_branchName (op : BranchOp) : IsMnemonic (branchName op) := by
  cases op <;> exact ⟨by decide, by decide, by decide⟩

/-- The branch mnemonics are the ones that R11 counts with the longest operands. -/
theorem branchName_length_le (op : BranchOp) : (branchName op).length ≤ 4 := by cases op <;> decide

theorem isMnemonic_jal : IsMnemonic ['j', 'a', 'l'] := ⟨by decide, by decide, by decide⟩

theorem isMnemonic_jalr : IsMnemonic ['j', 'a', 'l', 'r'] := ⟨by decide, by decide, by decide⟩

/-! ## Lines -/

/-- A padded mnemonic followed by an operand is a clean line, whatever stands between them. -/
theorem cleanLine_pad_append (cfg : Config) {m mid op : Text} (hm : IsMnemonic m)
    (hmid : mid.all lineChar = true) (hop : IsOperand op) : CleanLine (pad cfg m ++ mid ++ op) where
  lineChars := by
    have hlower : m.all lineChar = true :=
      List.all_eq_true.mpr fun c hc => lineChar_of_isLower (List.all_eq_true.mp hm.lower c hc)
    have hspaces : (List.replicate (cfg.mnemonicWidth - m.length) ' ').all lineChar = true :=
      List.all_eq_true.mpr fun c hc => List.eq_of_mem_replicate hc ▸ by decide
    simp only [pad, List.all_append, hlower, hspaces, hmid, hop.lineChars, Bool.and_self]
  head_lower := by
    obtain ⟨c, m', rfl⟩ := List.exists_cons_of_ne_nil hm.ne_nil
    exact ⟨c, rfl, List.all_eq_true.mp hm.lower c List.mem_cons_self⟩
  last_ne_space := by
    rw [List.getLast?_append_of_ne_nil _ hop.ne_nil]
    exact fun h => hop.no_space (List.mem_of_getLast? h)

theorem cleanLine_line2 (cfg : Config) {m a b : Text} (hm : IsMnemonic m) (ha : IsOperand a)
    (hb : IsOperand b) : CleanLine (line2 cfg m a b) :=
  cleanLine_pad_append cfg hm ha.lineChars (hb.cons (c := ',') (by decide) (by decide))

theorem cleanLine_line3 (cfg : Config) {m a b c : Text} (hm : IsMnemonic m) (ha : IsOperand a)
    (hb : IsOperand b) (hc : IsOperand c) : CleanLine (line3 cfg m a b c) := by
  have hab := ha.append (hb.cons (c := ',') (by decide) (by decide))
  have := cleanLine_pad_append cfg hm hab.lineChars (hc.cons (c := ',') (by decide) (by decide))
  rwa [← List.append_assoc] at this

theorem cleanLine_renderEcall : CleanLine renderEcall := ⟨by decide, ⟨'e', rfl, by decide⟩, by decide⟩

theorem cleanLine_renderEbreak : CleanLine renderEbreak := ⟨by decide, ⟨'e', rfl, by decide⟩, by decide⟩

/-- R15, R85, over the shapes of the renderer. -/
theorem cleanLine_render (cfg : Config) {d : DecodedInsn} (hd : d ≠ .illegal) : CleanLine (render cfg d) := by
  cases d with
  | upper op rd imm20 =>
    exact cleanLine_line2 cfg (isMnemonic_upperName op) (isOperand_reg rd) (isOperand_hexN _ _)
  | jal rd tgt => exact cleanLine_line2 cfg isMnemonic_jal (isOperand_reg rd) (isOperand_hexN _ _)
  | jalr rd rs1 imm => exact cleanLine_line2 cfg isMnemonic_jalr (isOperand_reg rd) (isOperand_disp imm rs1)
  | csrReg op rd csr rs1 =>
    exact cleanLine_line3 cfg (isMnemonic_csrRegName op) (isOperand_reg rd) (isOperand_hexN _ _)
      (isOperand_reg rs1)
  | csrImm op rd csr zimm =>
    exact cleanLine_line3 cfg (isMnemonic_csrImmName op) (isOperand_reg rd) (isOperand_hexN _ _)
      (isOperand_decu _)
  | ecall => exact cleanLine_renderEcall
  | ebreak => exact cleanLine_renderEbreak
  | aluReg op rd rs1 rs2 =>
    exact cleanLine_line3 cfg (isMnemonic_aluRegName op) (isOperand_reg rd) (isOperand_reg rs1)
      (isOperand_reg rs2)
  | aluImm op rd rs1 imm =>
    exact cleanLine_line3 cfg (isMnemonic_aluImmName op) (isOperand_reg rd) (isOperand_reg rs1)
      (isOperand_dec _)
  | shift op rd rs1 shamt =>
    exact cleanLine_line3 cfg (isMnemonic_shiftName op) (isOperand_reg rd) (isOperand_reg rs1)
      (isOperand_decu _)
  | load op rd rs1 imm =>
    exact cleanLine_line2 cfg (isMnemonic_loadName op) (isOperand_reg rd) (isOperand_disp imm rs1)
  | store op rs2 rs1 imm =>
    exact cleanLine_line2 cfg (isMnemonic_storeName op) (isOperand_reg rs2) (isOperand_disp imm rs1)
  | branch op rs1 rs2 tgt =>
    exact cleanLine_line3 cfg (isMnemonic_branchName op) (isOperand_reg rs1) (isOperand_reg rs2)
      (isOperand_hexN _ _)
  | illegal => exact absurd rfl hd

/-! ## Lengths (R11) -/

/-- A mnemonic of six letters takes two of the 18 operand characters that `TEXT_MAX` counts. -/
theorem line2_length_le (cfg : Config) {m a b : Text} (hm : IsMnemonic m) (h : a.length + b.length ≤ 15) :
    (line2 cfg m a b).length ≤ max cfg.mnemonicWidth 4 + 18 := by
  have := hm.length_le
  rw [line2_length]
  omega

theorem line3_length_le (cfg : Config) {m a b c : Text} (hm : IsMnemonic m)
    (h : a.length + b.length + c.length ≤ 14) : (line3 cfg m a b c).length ≤ max cfg.mnemonicWidth 4 + 18 := by
  have := hm.length_le
  rw [line3_length]
  omega

/-- R11, over the shapes of the renderer: the branches alone reach the bound. -/
theorem render_length_le (cfg : Config) {d : DecodedInsn} (hd : d ≠ .illegal) (hi : immInRange d = true) :
    (render cfg d).length ≤ max cfg.mnemonicWidth 4 + 18 := by
  cases d with
  | upper op rd imm20 =>
    refine line2_length_le cfg (isMnemonic_upperName op) ?_
    have := reg_length_le rd
    rw [hexN_length]; omega
  | jal rd tgt =>
    refine line2_length_le cfg isMnemonic_jal ?_
    have := reg_length_le rd
    rw [hexN_length]; omega
  | jalr rd rs1 imm =>
    refine line2_length_le cfg isMnemonic_jalr ?_
    have := reg_length_le rd
    have := disp_length_le rs1 hi
    omega
  | csrReg op rd csr rs1 =>
    refine line3_length_le cfg (isMnemonic_csrRegName op) ?_
    have := reg_length_le rd
    have := reg_length_le rs1
    rw [hexN_length]; omega
  | csrImm op rd csr zimm =>
    refine line3_length_le cfg (isMnemonic_csrImmName op) ?_
    have := reg_length_le rd
    have := decu_length_le_two zimm
    rw [hexN_length]; omega
  | ecall => exact le_trans (show 5 ≤ 18 by decide) (Nat.le_add_left _ _)
  | ebreak => exact le_trans (show 6 ≤ 18 by decide) (Nat.le_add_left _ _)
  | aluReg op rd rs1 rs2 =>
    refine line3_length_le cfg (isMnemonic_aluRegName op) ?_
    have := reg_length_le rd
    have := reg_length_le rs1
    have := reg_length_le rs2
    omega
  | aluImm op rd rs1 imm =>
    refine line3_length_le cfg (isMnemonic_aluImmName op) ?_
    have := reg_length_le rd
    have := reg_length_le rs1
    have := dec_length_le hi
    omega
  | shift op rd rs1 shamt =>
    refine line3_length_le cfg (isMnemonic_shiftName op) ?_
    have := reg_length_le rd
    have := reg_length_le rs1
    have := decu_length_le_two shamt
    omega
  | load op rd rs1 imm =>
    refine line2_length_le cfg (isMnemonic_loadName op) ?_
    have := reg_length_le rd
    have := disp_length_le rs1 hi
    omega
  | store op rs2 rs1 imm =>
    refine line2_length_le cfg (isMnemonic_storeName op) ?_
    have := reg_length_le rs2
    have := disp_length_le rs1 hi
    omega
  | branch op rs1 rs2 tgt =>
    have := branchName_length_le op
    have := reg_length_le rs1
    have := reg_length_le rs2
    rw [render, renderBranch, line3_length, hexN_length]; omega
  | illegal => exact absurd rfl hd

end Sys2Proof.Machine
end

section
/-! The obligations of 00_scope.md: the invariant of an evaluation, the shape of a recognised line, and
the sentinel. -/

namespace Sys2Proof.Machine

theorem illegalFlag_eq_true_iff (d : DecodedInsn) : illegalFlag d = true ↔ d = .illegal := by
  cases d <;> simp [illegalFlag]

/-- The state after a step is the state before it, with the outputs of `classify`. -/
theorem eq_drive_classify_of_step {s t : State} (h : step s = .next t) :
    t = s.drive (classify s.address s.word) := by
  rw [step_eq_drive_classify] at h
  injection h with h
  exact h.symm

/-- R11, R15, R182: the line of any decoded value under a legal sentinel. -/
theorem render_printable_line {cfg : Config} (hwf : cfg.wf = true) {d : DecodedInsn}
    (hi : immInRange d = true) :
    1 ≤ (render cfg d).length ∧ (render cfg d).length ≤ textMax cfg ∧ (render cfg d).all printable = true := by
  by_cases hd : d = .illegal
  · subst hd
    simp only [Config.wf, Bool.and_eq_true, Bool.not_eq_true', List.isEmpty_eq_false_iff] at hwf
    exact ⟨List.length_pos_iff.mpr hwf.1, le_max_right _ _, hwf.2⟩
  · obtain ⟨hchars, ⟨c, hhead, -⟩, -⟩ := cleanLine_render cfg hd
    refine ⟨List.length_pos_of_mem (List.mem_of_head? hhead), ?_, ?_⟩
    · exact le_trans (render_length_le cfg hd hi) (le_max_left _ _)
    · exact List.all_eq_true.mpr fun c hc => printable_of_lineChar (List.all_eq_true.mp hchars c hc)

/-- R10: a sentinel that passes the first-letter test is no recognised line, since these begin with a
lower-case letter. -/
theorem render_ne_illegalText {cfg : Config} (h : cfg.sentinelDistinct = true) {d : DecodedInsn}
    (hd : d ≠ .illegal) : render cfg d ≠ cfg.illegalText := by
  intro he
  obtain ⟨-, ⟨c, hhead, hlower⟩, -⟩ := cleanLine_render cfg hd
  rw [he] at hhead
  obtain ⟨l, hl⟩ := List.head?_eq_some_iff.mp hhead
  simp only [isLower] at hlower
  simp [Config.sentinelDistinct, hl, hlower] at h

theorem legalConfig_of_sentinelDistinct {cfg : Config} (hwf : cfg.wf = true)
    (hdist : cfg.sentinelDistinct = true) : LegalConfig cfg :=
  ⟨hwf, fun _ _ hd => render_ne_illegalText hdist hd⟩

/-- Settles O50: an evaluation drives `render` of `classify` whatever was on the outputs before, and both
have the properties that the invariant asks for. -/
theorem stepKeepsTheInvariant : Obligations.StepKeepsTheInvariant := by
  intro s t a w hwf h
  obtain rfl := eq_drive_classify_of_step h
  have himm := immInRange_classify a w
  obtain ⟨hpos, hmax, hprint⟩ := render_printable_line hwf himm
  exact ⟨hwf, ⟨rfl, rfl, rfl⟩, hpos, hmax, hprint, himm⟩

/-- Settles O47, by the shapes of the renderer. -/
theorem recognisedLinesAreOneCleanLine : Obligations.RecognisedLinesAreOneCleanLine := by
  intro s t h hill
  obtain rfl := eq_drive_classify_of_step h
  have hd : classify s.address s.word ≠ .illegal := fun hd => by
    rw [State.drive_illegal, hd] at hill
    cases hill
  obtain ⟨hchars, ⟨c, hhead, hlower⟩, hlast⟩ := cleanLine_render s.cfg hd
  exact ⟨hchars, ⟨c, hhead, by simpa [isLower] using hlower⟩, hlast⟩

/-- Settles O55: R10 keeps the sentinel apart from the line of every recognised word. -/
theorem sentinelIsToldFromEveryLine : Obligations.SentinelIsToldFromEveryLine := by
  intro s t hlegal h
  obtain rfl := eq_drive_classify_of_step h
  rw [State.drive_illegal, State.drive_text, illegalFlag_eq_true_iff]
  constructor
  · intro hd
    rw [hd]
    rfl
  · intro htext
    by_contra hd
    exact hlegal.2 s.address s.word hd htext

/-- Settles O60, for every width and for the defaults. -/
theorem firstLetterMakesASentinelLegal : Obligations.FirstLetterMakesASentinelLegal :=
  ⟨fun _ hwf hdist => legalConfig_of_sentinelDistinct hwf hdist,
    legalConfig_of_sentinelDistinct (by decide) (by decide)⟩

end Sys2Proof.Machine
end

section
/-! SUPPORT. The hexadecimal digits read back as their number (R83), and the column and the other operands
of a line do not hide its last operand (R85). -/

namespace Sys2Proof.Machine

theorem digitValue_digitChar {d : Nat} (h : d < 16) : digitValue (digitChar d) = d := by
  revert d
  decide

theorem readNumeral_append_singleton (base : Nat) (t : Text) (c : Char) :
    readNumeral base (t ++ [c]) = readNumeral base t * base + digitValue c := by
  simp [readNumeral]

/-- The digits are those of the low `n` places, whatever stands above them. -/
theorem readNumeral_hexDigits (n v : Nat) : readNumeral 16 (hexDigits n v) = v % 16 ^ n := by
  induction n generalizing v with
  | zero => simp [hexDigits, readNumeral, Nat.mod_one]
  | succ n ih =>
    have hlast : digitValue (digitChar (v % 16)) = v % 16 := digitValue_digitChar (Nat.mod_lt _ (by decide))
    rw [hexDigits, readNumeral_append_singleton, ih, hlast, pow_succ', Nat.mod_mul]
    omega

/-- Eight digits show all of a 32-bit value (R83). -/
theorem hexN_eight_inj {v v' : Word} : hexN 8 v.toNat = hexN 8 v'.toNat ↔ v = v' := by
  constructor
  · intro h
    have hread : ∀ x : Word, readNumeral 16 (hexDigits 8 (x.toNat % 16 ^ 8)) = x.toNat := fun x => by
      rw [readNumeral_hexDigits, Nat.mod_mod, Nat.mod_eq_of_lt (show x.toNat < 16 ^ 8 from x.isLt)]
    have hdigits : hexDigits 8 (v.toNat % 16 ^ 8) = hexDigits 8 (v'.toNat % 16 ^ 8) := by
      simpa [hexN] using h
    apply BitVec.eq_of_toNat_eq
    rw [← hread v, hdigits, hread v']
  · rintro rfl
    rfl

theorem line2_right_inj (cfg : Config) (m a : Text) {b b' : Text} :
    line2 cfg m a b = line2 cfg m a b' ↔ b = b' := by
  simp [line2]

theorem line3_right_inj (cfg : Config) (m a b : Text) {c c' : Text} :
    line3 cfg m a b c = line3 cfg m a b c' ↔ c = c' := by
  simp [line3]

end Sys2Proof.Machine
end

section
/-! SUPPORT. How the decoded value depends on the address (R22): through the target of `jal` and of the
six branches, and in no other way. -/

namespace Sys2Proof.Machine

/-- A branch word names its operation and its target, or is illegal at every address (R77). -/
theorem classifyBranch_cases (w : Word) :
    (∃ op, ∀ a, classifyBranch a w = .branch op (Field.rs1 w) (Field.rs2 w) (a + Field.immB w)) ∨
      ∀ a, classifyBranch a w = .illegal := by
  unfold classifyBranch
  rcases funct3_cases (Field.funct3 w) with h3 | h3 | h3 | h3 | h3 | h3 | h3 | h3 <;> rw [h3]
  · exact .inl ⟨.beq, fun _ => rfl⟩
  · exact .inl ⟨.bne, fun _ => rfl⟩
  · exact .inr fun _ => rfl
  · exact .inr fun _ => rfl
  · exact .inl ⟨.blt, fun _ => rfl⟩
  · exact .inl ⟨.bge, fun _ => rfl⟩
  · exact .inl ⟨.bltu, fun _ => rfl⟩
  · exact .inl ⟨.bgeu, fun _ => rfl⟩

theorem classify_of_jal {w : Word} (h : Field.opcode w = 0b1101111#7) (a : Word) :
    classify a w = .jal (Field.rd w) (a + Field.immJ w) := by
  rw [classify, h]
  rfl

theorem classify_of_branch {w : Word} (h : Field.opcode w = 0b1100011#7) (a : Word) :
    classify a w = classifyBranch a w := by
  rw [classify, h]
  rfl

theorem classify_address_irrelevant {w : Word} (hj : Field.opcode w ≠ 0b1101111#7)
    (hb : Field.opcode w ≠ 0b1100011#7) (a a' : Word) : classify a w = classify a' w := by
  unfold classify
  split
  case h_3 h => exact absurd h hj
  case h_10 h => exact absurd h hb
  all_goals rfl

/-- The line of a `jal` tells its target. -/
theorem render_jal_inj (cfg : Config) (rd : RegIdx) {v v' : Word} :
    render cfg (.jal rd v) = render cfg (.jal rd v') ↔ v = v' :=
  (line2_right_inj cfg _ _).trans hexN_eight_inj

/-- The line of a branch tells its target. -/
theorem render_branch_inj (cfg : Config) (op : BranchOp) (rs1 rs2 : RegIdx) {v v' : Word} :
    render cfg (.branch op rs1 rs2 v) = render cfg (.branch op rs1 rs2 v') ↔ v = v' :=
  (line3_right_inj cfg _ _ _).trans hexN_eight_inj

/-- R22 for the spec's function: the line at another address. -/
theorem render_classify_address_iff (cfg : Config) (a a' w : Word) :
    render cfg (classify a' w) = render cfg (classify a w) ↔
      a' = a ∨ ¬ (Field.opcode w = 0b1101111#7 ∨
        (Field.opcode w = 0b1100011#7 ∧ illegalFlag (classify a w) = false)) := by
  by_cases hj : Field.opcode w = 0b1101111#7
  · rw [classify_of_jal hj, classify_of_jal hj, render_jal_inj, BitVec.add_left_inj]
    simp [hj]
  by_cases hb : Field.opcode w = 0b1100011#7
  · rw [classify_of_branch hb, classify_of_branch hb]
    obtain ⟨op, hop⟩ | hill := classifyBranch_cases w
    · rw [hop, hop, render_branch_inj, BitVec.add_left_inj]
      simp [hb, illegalFlag]
    · simp [hill, hb, illegalFlag]
  · rw [classify_address_irrelevant hj hb a' a]
    simp [hj, hb]

end Sys2Proof.Machine
end

section
/-! SUPPORT. The packed ports (R29, R41): the width of `text_len`, and the bytes of `text`. -/

namespace Sys2Proof.Machine

theorem textMax_pos (cfg : Config) : 0 < textMax cfg := by
  unfold textMax
  omega

theorem textMax_lt_two_pow_textLenWidth (cfg : Config) : textMax cfg < 2 ^ textLenWidth cfg :=
  Nat.lt_log2_self

theorem two_pow_textLenWidth_le_textMax (cfg : Config) : 2 ^ (textLenWidth cfg - 1) ≤ textMax cfg :=
  Nat.log2_self_le (textMax_pos cfg).ne'

/-- `text_len` holds every length up to `TEXT_MAX`. -/
theorem textLenPort_toNat {s : State} (h : s.text.length ≤ textMax s.cfg) :
    s.textLenPort.toNat = s.text.length := by
  rw [State.textLenPort, BitVec.toNat_ofNat,
    Nat.mod_eq_of_lt (h.trans_lt (textMax_lt_two_pow_textLenWidth s.cfg))]

theorem packText_lt (t : Text) : packText t < 2 ^ (8 * t.length) := by
  induction t with
  | nil => decide
  | cons c cs ih =>
    have := (asciiByte c).isLt
    rw [packText, List.length_cons, Nat.mul_succ, pow_add]
    omega

/-- Byte `k` of the packed line is character `k`, and 0 past the end. -/
theorem packText_byte (t : Text) (k : Nat) :
    BitVec.ofNat 8 (packText t / 2 ^ (8 * k)) = (t[k]?.map asciiByte).getD 0 := by
  induction t generalizing k with
  | nil => simp [packText]
  | cons c cs ih =>
    have hc := (asciiByte c).isLt
    cases k with
    | zero =>
      apply BitVec.eq_of_toNat_eq
      simp only [packText, BitVec.toNat_ofNat, List.getElem?_cons_zero, Option.map_some, Option.getD_some]
      omega
    | succ k =>
      have hdrop : packText (c :: cs) / 2 ^ (8 * (k + 1)) = packText cs / 2 ^ (8 * k) := by
        rw [show 8 * (k + 1) = 8 + 8 * k by ring, pow_add, ← Nat.div_div_eq_div_mul, packText]
        congr 1
        omega
      rw [hdrop, ih, List.getElem?_cons_succ]

/-- R29, R41: the bytes of the `text` port of a line that fits it. -/
theorem textPort_byte {s : State} (h : s.text.length ≤ textMax s.cfg) (k : Nat) :
    s.textPort.extractLsb' (8 * k) 8 = (s.text[k]?.map asciiByte).getD 0 := by
  have hfit : packText s.text < 2 ^ (8 * textMax s.cfg) :=
    (packText_lt s.text).trans_le (Nat.pow_le_pow_right (by decide) (Nat.mul_le_mul_left 8 h))
  rw [← packText_byte, BitVec.extractLsb', State.textPort, BitVec.toNat_ofNat,
    Nat.mod_eq_of_lt hfit, Nat.shiftRight_eq_div_pow]

end Sys2Proof.Machine
end

section
/-! SUPPORT. A sequence of evaluations, pair by pair (R211), and what it leaves unchanged. -/

namespace Sys2Proof.Machine

@[simp] theorem State.drive_drive (s : State) (d d' : DecodedInsn) : (s.drive d).drive d' = s.drive d' := rfl

theorem step_cfg {s t : State} (h : step s = .next t) : t.cfg = s.cfg := by
  rw [eq_drive_classify_of_step h, State.drive_cfg]

/-- The inversion lemma of `evaluate`: the first pair is stepped, the others are evaluated from there. -/
theorem evaluate_cons_next {s u : State} {p : Word × Word} {ps : List (Word × Word)} {lines : List Line}
    (h : evaluate s (p :: ps) = .next (lines, u)) :
    ∃ t rest, step (s.present p.1 p.2) = .next t ∧ evaluate t ps = .next (rest, u) ∧
      lines = (t.text, t.illegal) :: rest := by
  obtain ⟨d, hd⟩ := step_drives (s.present p.1 p.2)
  rw [evaluate, hd] at h
  cases hrest : evaluate ((s.present p.1 p.2).drive d) ps with
  | fault r => simp [hrest] at h
  | refused r => simp [hrest] at h
  | next out =>
    obtain ⟨rest, v⟩ := out
    simp only [hrest, Host.Outcome.next.injEq, Prod.mk.injEq] at h
    obtain ⟨hlines, rfl⟩ := h
    exact ⟨_, rest, hd, hrest, hlines.symm⟩

/-- No sequence of evaluations changes the build parameters (R207). -/
theorem evaluate_cfg {s u : State} {pairs : List (Word × Word)} {lines : List Line}
    (h : evaluate s pairs = .next (lines, u)) : u.cfg = s.cfg := by
  induction pairs generalizing s lines with
  | nil => cases h; rfl
  | cons p ps ih =>
    obtain ⟨t, rest, hstep, hrest, -⟩ := evaluate_cons_next h
    rw [ih hrest, step_cfg hstep, State.present_cfg]

end Sys2Proof.Machine
end

section
/-! The obligations of 10_state.md: what an evaluation reads and changes, the ports, and the state at
reset. -/

namespace Sys2Proof.Machine

/-- Settles O52: the inputs and the parameters determine the outputs, and nothing in between changes the
parameters. -/
theorem outputsDependOnTheInputsAlone : Obligations.OutputsDependOnTheInputsAlone := by
  intro s t u v a w pairs lines ht hu hv
  have hcfg : u.cfg = s.cfg := by
    rw [evaluate_cfg hu, step_cfg ht, State.present_cfg]
  obtain rfl := eq_drive_classify_of_step ht
  obtain rfl := eq_drive_classify_of_step hv
  simp [hcfg]

/-- Settles O53: driving the outputs leaves the inputs, and so the decoded value, as they are. -/
theorem evaluationIsIdempotent : Obligations.EvaluationIsIdempotent := by
  intro s t h
  obtain rfl := eq_drive_classify_of_step h
  simp [step_eq_drive_classify]

/-- Settles O54: the address is read for the target of a `jal` or a recognised branch alone, and the eight
digits of the target show it. -/
theorem addressIsReadByJalAndBranchesOnly : Obligations.AddressIsReadByJalAndBranchesOnly := by
  intro s t t' a ht ht'
  obtain rfl := eq_drive_classify_of_step ht
  obtain rfl := eq_drive_classify_of_step ht'
  exact render_classify_address_iff s.cfg s.address a s.word

/-- Settles O56: a line of a legal block fits the ports. -/
theorem portsCarryTheLine : Obligations.PortsCarryTheLine := by
  intro s t hwf h
  obtain rfl := eq_drive_classify_of_step h
  obtain ⟨hpos, hmax, -⟩ := render_printable_line hwf (immInRange_classify s.address s.word)
  have hlen := textLenPort_toNat (s := s.drive (classify s.address s.word)) hmax
  refine ⟨two_pow_textLenWidth_le_textMax s.cfg, textMax_lt_two_pow_textLenWidth s.cfg, hlen,
    hlen ▸ hpos, hlen ▸ hmax, fun k _ => ?_, illegalFlag_eq_true_iff _⟩
  rw [textPort_byte hmax]
  cases (s.drive (classify s.address s.word)).text[k]? <;> rfl

/-- Settles O9: every instruction drives the outputs and does nothing else. -/
theorem instructionsChangeOutputsOnly : Obligations.InstructionsChangeOutputsOnly := by
  intro i s t h
  obtain ⟨d, hd⟩ := exec_drives i s
  rw [hd] at h
  cases h
  exact ⟨rfl, rfl, rfl⟩

/-- Settles O51: the outputs at reset are those of the pair (0, 0), so evaluating it leads back to the
reset state. -/
theorem resetMeetsTheInvariant : Obligations.ResetMeetsTheInvariant := by
  have hfix : step (State.reset.present 0 0) = .next State.reset := rfl
  exact stepKeepsTheInvariant State.reset State.reset 0 0 (by decide) hfix

end Sys2Proof.Machine
end

section
/-! The obligation of 20_memory.md: the collaborator's `read32` (R40), from what a read returns after an
image was loaded. -/

namespace Sys2Proof.Machine

/-- The byte positions of D23. -/
theorem wordOfBytes_extractLsb' (b0 b1 b2 b3 : Byte) :
    (wordOfBytes b0 b1 b2 b3).extractLsb' 0 8 = b0 ∧ (wordOfBytes b0 b1 b2 b3).extractLsb' 8 8 = b1 ∧
    (wordOfBytes b0 b1 b2 b3).extractLsb' 16 8 = b2 ∧ (wordOfBytes b0 b1 b2 b3).extractLsb' 24 8 = b3 := by
  unfold wordOfBytes
  refine ⟨BitVec.extractLsb'_append_eq_right, ?_, ?_, ?_⟩
  · rw [BitVec.extractLsb'_append_eq_of_le (by decide)]
    exact BitVec.extractLsb'_append_eq_right
  · rw [BitVec.extractLsb'_append_eq_of_le (by decide), BitVec.extractLsb'_append_eq_of_le (by decide)]
    exact BitVec.extractLsb'_append_eq_right
  · rw [BitVec.extractLsb'_append_eq_of_le (by decide), BitVec.extractLsb'_append_eq_of_le (by decide)]
    exact BitVec.extractLsb'_append_eq_left

/-- R40, where all four bytes are in the memory. -/
theorem Memory.read32_eq_wordOfBytes {m : Memory} {a : Word} {b0 b1 b2 b3 : Byte}
    (h0 : m.readByte a = some b0) (h1 : m.readByte (a + 1) = some b1)
    (h2 : m.readByte (a + 2) = some b2) (h3 : m.readByte (a + 3) = some b3) :
    m.read32 a = wordOfBytes b0 b1 b2 b3 := by
  rw [Memory.read32, h0, h1, h2, h3]

theorem add_ofNat_succ (a : Word) (k : Nat) :
    a + BitVec.ofNat 32 (k + 1) = a + 1 + BitVec.ofNat 32 k := by
  rw [Nat.add_comm, BitVec.ofNat_add, BitVec.add_assoc]; rfl

/-- Loading an image leaves the bytes at other addresses as they are. -/
theorem Memory.readByte_load_of_ne {a' : Word} : ∀ {m : Memory} {a : Word} {bs : List Byte},
    (∀ k < bs.length, a' ≠ a + BitVec.ofNat 32 k) → (m.load a bs).readByte a' = m.readByte a'
  | _, _, [], _ => rfl
  | m, a, b :: bs, h => by
    have hrest : ∀ k < bs.length, a' ≠ a + 1 + BitVec.ofNat 32 k := fun k hk =>
      add_ofNat_succ a k ▸ h (k + 1) (Nat.succ_lt_succ hk)
    have hfirst : a' ≠ a := by simpa using h 0 (Nat.succ_pos _)
    rw [Memory.load, Memory.readByte_load_of_ne hrest, Memory.readByte_writeByte_ne b hfirst]

/-- Byte `k` of a loaded image is at `a + k`, across the top of the address space too (log 19), as long as
the image does not overwrite its own beginning. -/
theorem Memory.readByte_load : ∀ {m : Memory} {a : Word} {bs : List Byte} {k : Nat},
    bs.length ≤ 2 ^ 32 → k < bs.length → (m.load a bs).readByte (a + BitVec.ofNat 32 k) = bs[k]?
  | m, a, b :: bs, 0, hfit, _ => by
    have hrest : ∀ k < bs.length, a ≠ a + 1 + BitVec.ofNat 32 k := by
      intro k hk
      rw [List.length_cons] at hfit
      bv_omega
    rw [Memory.load, BitVec.add_zero, Memory.readByte_load_of_ne hrest, Memory.readByte_writeByte_self]
    rfl
  | m, a, b :: bs, k + 1, hfit, hk => by
    rw [Memory.load, add_ofNat_succ, List.getElem?_cons_succ]
    exact Memory.readByte_load (Nat.le_of_succ_le hfit) (Nat.lt_of_succ_lt_succ hk)

/-- An image of four bytes reads back as its word. -/
theorem Memory.read32_load (m : Memory) (a : Word) (b0 b1 b2 b3 : Byte) :
    (m.load a [b0, b1, b2, b3]).read32 a = wordOfBytes b0 b1 b2 b3 := by
  have hbyte (k : Nat) (hk : k < 4) : (m.load a [b0, b1, b2, b3]).readByte (a + BitVec.ofNat 32 k) =
      [b0, b1, b2, b3][k]? := Memory.readByte_load (by simp) hk
  have h0 : (m.load a [b0, b1, b2, b3]).readByte a = some b0 := by simpa using hbyte 0 (by decide)
  exact Memory.read32_eq_wordOfBytes h0 (hbyte 1 (by decide)) (hbyte 2 (by decide)) (hbyte 3 (by decide))

/-- Settles O58: the byte at `a + i` is byte `i` of the word read there, and a loaded image of four bytes is
read back as its word. -/
theorem readIsLittleEndian : Obligations.ReadIsLittleEndian := by
  intro m a b0 b1 b2 b3
  refine ⟨fun h0 h1 h2 h3 => ?_, Memory.read32_load m a b0 b1 b2 b3⟩
  rw [Memory.read32_eq_wordOfBytes h0 h1 h2 h3]
  exact wordOfBytes_extractLsb' b0 b1 b2 b3

end Sys2Proof.Machine
end

section
/-! SUPPORT. The decoder, one equation per opcode (R71), and the fields of a word of each format (R62). -/

namespace Sys2Proof

/-! ## The first level of the tree -/

section Opcodes
variable {w : Word}

theorem decode_of_lui (h : Field.opcode w = 0b0110111#7) :
    decode w = .ok (.lui (Field.rd w) (Field.imm20 w)) := by simp [decode, classOf, h]

theorem decode_of_auipc (h : Field.opcode w = 0b0010111#7) :
    decode w = .ok (.auipc (Field.rd w) (Field.imm20 w)) := by simp [decode, classOf, h]

theorem decode_of_jal (h : Field.opcode w = 0b1101111#7) :
    decode w = .ok (.jal (Field.rd w) (Field.immJ w)) := by simp [decode, classOf, h]

theorem decode_of_jalr (h : Field.opcode w = 0b1100111#7) :
    decode w = .ok (.jalr (Field.rd w) (Field.rs1 w) (Field.funct3 w) (Field.immI w)) := by
  simp [decode, classOf, h]

theorem decode_of_system (h : Field.opcode w = 0b1110011#7) : decode w = decodeSystem w := by
  simp [decode, classOf, h]

theorem decode_of_rtype (h : Field.opcode w = 0b0110011#7) : decode w = decodeRType w := by
  simp [decode, classOf, h]

theorem decode_of_aluImm (h : Field.opcode w = 0b0010011#7) : decode w = decodeAluImm w := by
  simp [decode, classOf, h]

theorem decode_of_load (h : Field.opcode w = 0b0000011#7) : decode w = decodeLoad w := by
  simp [decode, classOf, h]

theorem decode_of_store (h : Field.opcode w = 0b0100011#7) : decode w = decodeStore w := by
  simp [decode, classOf, h]

theorem decode_of_branch (h : Field.opcode w = 0b1100011#7) : decode w = decodeBranch w := by
  simp [decode, classOf, h]

/-- The two full-word matches of SYSTEM have `funct3` 000, so that no CSR word is one of them (R72). -/
theorem ne_ecall_of_funct3 (h : Field.funct3 w ≠ 0) : w ≠ 0x00000073#32 := by
  rintro rfl
  exact h rfl

theorem ne_ebreak_of_funct3 (h : Field.funct3 w ≠ 0) : w ≠ 0x00100073#32 := by
  rintro rfl
  exact h rfl

/-- Level 1 (R71): the opcode is one of ten, or the word is rejected there. -/
theorem opcode_cases (w : Word) :
    Field.opcode w = 0b0110111#7 ∨ Field.opcode w = 0b0010111#7 ∨ Field.opcode w = 0b1101111#7 ∨
    Field.opcode w = 0b1100111#7 ∨ Field.opcode w = 0b1110011#7 ∨ Field.opcode w = 0b0110011#7 ∨
    Field.opcode w = 0b0010011#7 ∨ Field.opcode w = 0b0000011#7 ∨ Field.opcode w = 0b0100011#7 ∨
    Field.opcode w = 0b1100011#7 ∨ classOf w = .unrecognized := by
  unfold classOf
  split <;> simp [*]

theorem decode_of_unrecognized (h : classOf w = .unrecognized) : decode w = .error .opcode := by
  rw [decode, h]

end Opcodes

/-! ## The fields of the I, S and B formats, which have the places of the R format -/

section Formats
variable (hi : BitVec 12) (imm : Word) (rs2 rs1 : BitVec 5) (f3 : BitVec 3) (rd : BitVec 5) (op : BitVec 7)

@[simp] theorem opcode_iType : Field.opcode (iType hi rs1 f3 rd op) = op := opcode_rType _ _ _ _ _ _
@[simp] theorem rd_iType : Field.rd (iType hi rs1 f3 rd op) = rd := rd_rType _ _ _ _ _ _
@[simp] theorem funct3_iType : Field.funct3 (iType hi rs1 f3 rd op) = f3 := funct3_rType _ _ _ _ _ _
@[simp] theorem rs1_iType : Field.rs1 (iType hi rs1 f3 rd op) = rs1 := rs1_rType _ _ _ _ _ _
@[simp] theorem zimm_iType : Field.zimm (iType hi rs1 f3 rd op) = rs1 := rs1_rType _ _ _ _ _ _

@[simp] theorem opcode_sType : Field.opcode (sType imm rs2 rs1 f3 op) = op := opcode_rType _ _ _ _ _ _
@[simp] theorem funct3_sType : Field.funct3 (sType imm rs2 rs1 f3 op) = f3 := funct3_rType _ _ _ _ _ _
@[simp] theorem rs1_sType : Field.rs1 (sType imm rs2 rs1 f3 op) = rs1 := rs1_rType _ _ _ _ _ _
@[simp] theorem rs2_sType : Field.rs2 (sType imm rs2 rs1 f3 op) = rs2 := rs2_rType _ _ _ _ _ _

@[simp] theorem opcode_bType : Field.opcode (bType imm rs2 rs1 f3 op) = op := opcode_rType _ _ _ _ _ _
@[simp] theorem funct3_bType : Field.funct3 (bType imm rs2 rs1 f3 op) = f3 := funct3_rType _ _ _ _ _ _
@[simp] theorem rs1_bType : Field.rs1 (bType imm rs2 rs1 f3 op) = rs1 := rs1_rType _ _ _ _ _ _
@[simp] theorem rs2_bType : Field.rs2 (bType imm rs2 rs1 f3 op) = rs2 := rs2_rType _ _ _ _ _ _

@[simp] theorem opcode_jType : Field.opcode (jType imm rd op) = op := opcode_uType _ _ _
@[simp] theorem rd_jType : Field.rd (jType imm rd op) = rd := rd_uType _ _ _

/-- A word of the R shape holds its shift amount at the place of `rs2` (R69). -/
@[simp] theorem shamt_rType (f7 : BitVec 7) : Field.shamt (rType f7 rs2 rs1 f3 rd op) = rs2 := by
  rw [shamt_eq_rs2, rs2_rType]

end Formats

/-- The round trip from the instruction, format by format. -/
theorem decode_encode {i : Instr} (h : i.wf = true) : decode (encode i) = .ok i := by
  cases i with
  | lui | auipc => simp [encode, decode_of_lui, decode_of_auipc]
  | jal => simp [encode, decode_of_jal, immJ_jType h]
  | jalr => simp [encode, decode_of_jalr, immI_iType h]
  | ecall | ebreak => rfl
  | csrrw | csrrs | csrrc | csrrwi | csrrsi | csrrci =>
    simp [encode, decode_of_system, decodeSystem, ne_ecall_of_funct3, ne_ebreak_of_funct3]
  | add | sub | sll | slt | sltu | xor | srl | sra | or | and =>
    simp [encode, decode_of_rtype, decodeRType]
  | addi | slti | sltiu | xori | ori | andi => simp [encode, decode_of_aluImm, decodeAluImm, immI_iType h]
  | slli | srli | srai => simp [encode, decode_of_aluImm, decodeAluImm]
  | lb | lh | lw | lbu | lhu => simp [encode, decode_of_load, decodeLoad, immI_iType h]
  | sb | sh | sw => simp [encode, decode_of_store, decodeStore, immS_sType h]
  | beq | bne | blt | bge | bltu | bgeu => simp [encode, decode_of_branch, decodeBranch, immB_bType h]

end Sys2Proof
end

section
/-! SUPPORT. A word put together from its own fields, format by format, and along the tree of R71 to R77 the
word that a decoded instruction encodes back to. -/

namespace Sys2Proof.Machine

/-! ## The places of the immediates' bits (R63 to R67) -/

/-- Slices are equal when their bits are. -/
theorem slice_eq_iff {u v : Word} {a b n : Nat} :
    u.extractLsb' a n = v.extractLsb' b n ↔ ∀ j < n, u.getLsbD (a + j) = v.getLsbD (b + j) := by
  constructor
  · intro h j hj
    simpa [hj] using congrArg (fun x => x.getLsbD j) h
  · intro h
    apply BitVec.eq_of_getLsbD_eq; intro j hj
    simp [hj, h j hj]

theorem immI_low (w : Word) : (Field.immI w).extractLsb' 0 12 = Field.csr w :=
  slice_eq_iff.mpr fun j hj => by rw [Nat.zero_add, immI_getLsbD w (by omega), if_pos hj]

theorem immS_high (w : Word) : (Field.immS w).extractLsb' 5 7 = Field.funct7 w :=
  slice_eq_iff.mpr fun j hj => by
    rw [immS_getLsbD w (by omega), if_neg (by omega), if_pos (by omega), ← Nat.add_assoc]

theorem immS_low (w : Word) : (Field.immS w).extractLsb' 0 5 = Field.rd w :=
  slice_eq_iff.mpr fun j hj => by rw [Nat.zero_add, immS_getLsbD w (by omega), if_pos hj]

theorem immB_high (w : Word) :
    (Field.immB w).extractLsb' 12 1 ++ (Field.immB w).extractLsb' 5 6 = Field.funct7 w := by
  apply BitVec.eq_of_getLsbD_eq; intro j hj
  simp only [Field.funct7, BitVec.getLsbD_append, BitVec.getLsbD_extractLsb', immB_getLsbD,
    show 5 + j < 32 by omega, show 12 + (j - 6) < 32 by omega]
  interval_cases j <;> simp

theorem immB_low (w : Word) :
    (Field.immB w).extractLsb' 1 4 ++ (Field.immB w).extractLsb' 11 1 = Field.rd w := by
  apply BitVec.eq_of_getLsbD_eq; intro j hj
  simp only [Field.rd, BitVec.getLsbD_append, BitVec.getLsbD_extractLsb', immB_getLsbD,
    show 11 + j < 32 by omega, show 1 + (j - 1) < 32 by omega]
  interval_cases j <;> simp

theorem immJ_bits (w : Word) :
    ((Field.immJ w).extractLsb' 20 1 ++ (Field.immJ w).extractLsb' 1 10 ++
      (Field.immJ w).extractLsb' 11 1 ++ (Field.immJ w).extractLsb' 12 8).cast rfl = Field.imm20 w := by
  apply BitVec.eq_of_getLsbD_eq; intro j hj
  simp only [Field.imm20, BitVec.getLsbD_cast, BitVec.getLsbD_append, BitVec.getLsbD_extractLsb', immJ_getLsbD,
    show 12 + j < 32 by omega, show 11 + (j - 8) < 32 by omega, show 1 + (j - 8 - 1) < 32 by omega,
    show 20 + (j - 8 - 1 - 10) < 32 by omega]
  interval_cases j <;> simp

theorem csr_high (w : Word) : (Field.csr w).extractLsb' 5 7 = Field.funct7 w := by
  rw [csr_eq_append]
  exact BitVec.extractLsb'_append_eq_left

theorem csr_low (w : Word) : (Field.csr w).extractLsb' 0 5 = Field.rs2 w := by
  rw [csr_eq_append]
  exact BitVec.extractLsb'_append_eq_right

/-! ## A word from its own fields -/

section Words
variable {w : Word} {f7 : BitVec 7} {f3 : BitVec 3} {op : BitVec 7}

theorem rType_of_fields (h7 : Field.funct7 w = f7) (h3 : Field.funct3 w = f3) (ho : Field.opcode w = op) :
    rType f7 (Field.rs2 w) (Field.rs1 w) f3 (Field.rd w) op = w := by
  subst h7 h3 ho
  exact rType_fields w

theorem iType_csr (h3 : Field.funct3 w = f3) (ho : Field.opcode w = op) :
    iType (Field.csr w) (Field.rs1 w) f3 (Field.rd w) op = w := by
  rw [iType, csr_high, csr_low]
  exact rType_of_fields rfl h3 ho

theorem iType_immI (h3 : Field.funct3 w = f3) (ho : Field.opcode w = op) :
    iType ((Field.immI w).extractLsb' 0 12) (Field.rs1 w) f3 (Field.rd w) op = w := by
  rw [immI_low]
  exact iType_csr h3 ho

theorem rType_shamt (h7 : Field.funct7 w = f7) (h3 : Field.funct3 w = f3) (ho : Field.opcode w = op) :
    rType f7 (Field.shamt w) (Field.rs1 w) f3 (Field.rd w) op = w := by
  rw [shamt_eq_rs2]
  exact rType_of_fields h7 h3 ho

theorem sType_immS (h3 : Field.funct3 w = f3) (ho : Field.opcode w = op) :
    sType (Field.immS w) (Field.rs2 w) (Field.rs1 w) f3 op = w := by
  rw [sType, immS_high, immS_low]
  exact rType_of_fields rfl h3 ho

theorem bType_immB (h3 : Field.funct3 w = f3) (ho : Field.opcode w = op) :
    bType (Field.immB w) (Field.rs2 w) (Field.rs1 w) f3 op = w := by
  rw [bType, immB_high, immB_low]
  exact rType_of_fields rfl h3 ho

theorem uType_imm20 (ho : Field.opcode w = op) : uType (Field.imm20 w) (Field.rd w) op = w := by
  subst ho
  apply BitVec.eq_of_getLsbD_eq; intro j hj
  simp only [uType, Field.imm20, Field.rd, Field.opcode, BitVec.getLsbD_cast, BitVec.getLsbD_append,
    BitVec.getLsbD_extractLsb']
  split_ifs <;> grind

theorem jType_immJ (ho : Field.opcode w = op) : jType (Field.immJ w) (Field.rd w) op = w := by
  rw [jType, immJ_bits]
  exact uType_imm20 ho

end Words

/-! ## The immediates are in their ranges -/

theorem immB_even (w : Word) : (Field.immB w).toInt % 2 = 0 :=
  (bit0_eq_false_iff_even _).mp (immB_getLsbD w (by decide))

theorem immJ_even (w : Word) : (Field.immJ w).toInt % 2 = 0 :=
  (bit0_eq_false_iff_even _).mp (immJ_getLsbD w (by decide))

theorem fitsImmB_immB (w : Word) : fitsImmB (Field.immB w) = true := by
  have hrange : -4096 ≤ (Field.immB w).toInt ∧ (Field.immB w).toInt < 4096 := signExtend_range _ (by decide)
  have heven := immB_even w
  rw [fitsImmB, decide_eq_true_iff]
  omega

theorem fitsImmJ_immJ (w : Word) : fitsImmJ (Field.immJ w) = true := by
  have hrange : -1048576 ≤ (Field.immJ w).toInt ∧ (Field.immJ w).toInt < 1048576 :=
    signExtend_range _ (by decide)
  have heven := immJ_even w
  rw [fitsImmJ, decide_eq_true_iff]
  omega

/-! ## The tree, level by level -/

section Tree
variable {w : Word} {i : Instr}

/-- The last arm of a `funct3` switch that names the seven other values (R73, R74). -/
theorem funct3_eq_seven {f3 : BitVec 3} (h0 : f3 ≠ 0) (h1 : f3 ≠ 1) (h2 : f3 ≠ 2) (h3 : f3 ≠ 3)
    (h4 : f3 ≠ 4) (h5 : f3 ≠ 5) (h6 : f3 ≠ 6) : f3 = 7 := by
  have := funct3_cases f3
  tauto

theorem encode_decodeSystem (ho : Field.opcode w = 0b1110011#7) (h : decodeSystem w = .ok i) :
    encode i = w ∧ i.wf = true := by
  unfold decodeSystem at h
  split_ifs at h with hc hb
  · cases h
    exact ⟨hc.symm, rfl⟩
  · cases h
    exact ⟨hb.symm, rfl⟩
  · split at h <;> cases h
    all_goals exact ⟨iType_csr ‹_› ho, rfl⟩

/-- The cases `h_1` and `h_6` are `funct3` 000 and 101, which examine `funct7` (R73). -/
theorem encode_decodeRType (ho : Field.opcode w = 0b0110011#7) (h : decodeRType w = .ok i) :
    encode i = w ∧ i.wf = true := by
  unfold decodeRType at h
  split at h
  case h_1 | h_6 =>
    split at h <;> cases h
    all_goals exact ⟨rType_of_fields ‹_› ‹_› ho, rfl⟩
  case h_8 =>
    cases h
    exact ⟨rType_of_fields rfl (funct3_eq_seven ‹_› ‹_› ‹_› ‹_› ‹_› ‹_› ‹_›) ho, rfl⟩
  all_goals
    cases h
    exact ⟨rType_of_fields rfl ‹_› ho, rfl⟩

/-- The cases `h_2` and `h_6` are the shifts; `funct7` is examined under `funct3` 101 alone (R74). -/
theorem encode_decodeAluImm (ho : Field.opcode w = 0b0010011#7) (h : decodeAluImm w = .ok i) :
    encode i = w ∧ i.wf = true := by
  unfold decodeAluImm at h
  split at h
  case h_2 =>
    cases h
    exact ⟨rType_shamt rfl ‹_› ho, rfl⟩
  case h_6 =>
    split at h <;> cases h
    all_goals exact ⟨rType_shamt ‹_› ‹_› ho, rfl⟩
  case h_8 =>
    cases h
    exact ⟨iType_immI (funct3_eq_seven ‹_› ‹_› ‹_› ‹_› ‹_› ‹_› ‹_›) ho, fitsImm12_immI w⟩
  all_goals
    cases h
    exact ⟨iType_immI ‹_› ho, fitsImm12_immI w⟩

theorem encode_decodeLoad (ho : Field.opcode w = 0b0000011#7) (h : decodeLoad w = .ok i) :
    encode i = w ∧ i.wf = true := by
  unfold decodeLoad at h
  split at h <;> cases h
  all_goals exact ⟨iType_immI ‹_› ho, fitsImm12_immI w⟩

theorem encode_decodeStore (ho : Field.opcode w = 0b0100011#7) (h : decodeStore w = .ok i) :
    encode i = w ∧ i.wf = true := by
  unfold decodeStore at h
  split at h <;> cases h
  all_goals exact ⟨sType_immS ‹_› ho, fitsImm12_immS w⟩

theorem encode_decodeBranch (ho : Field.opcode w = 0b1100011#7) (h : decodeBranch w = .ok i) :
    encode i = w ∧ i.wf = true := by
  unfold decodeBranch at h
  split at h <;> cases h
  all_goals exact ⟨bType_immB ‹_› ho, fitsImmB_immB w⟩

/-- The round trip from the word. -/
theorem encode_decode (h : decode w = .ok i) : encode i = w ∧ i.wf = true := by
  rcases opcode_cases w with ho | ho | ho | ho | ho | ho | ho | ho | ho | ho | hc
  · rw [decode_of_lui ho] at h
    cases h
    exact ⟨uType_imm20 ho, rfl⟩
  · rw [decode_of_auipc ho] at h
    cases h
    exact ⟨uType_imm20 ho, rfl⟩
  · rw [decode_of_jal ho] at h
    cases h
    exact ⟨jType_immJ ho, fitsImmJ_immJ w⟩
  · rw [decode_of_jalr ho] at h
    cases h
    exact ⟨iType_immI rfl ho, fitsImm12_immI w⟩
  · exact encode_decodeSystem ho (decode_of_system ho ▸ h)
  · exact encode_decodeRType ho (decode_of_rtype ho ▸ h)
  · exact encode_decodeAluImm ho (decode_of_aluImm ho ▸ h)
  · exact encode_decodeLoad ho (decode_of_load ho ▸ h)
  · exact encode_decodeStore ho (decode_of_store ho ▸ h)
  · exact encode_decodeBranch ho (decode_of_branch ho ▸ h)
  · rw [decode_of_unrecognized hc] at h
    cases h

end Tree
end Sys2Proof.Machine
end

section
/-! SUPPORT. The rows of the opcode map that a word matches (R99): a row covers a word exactly when the tree
decodes the word to an instruction of the row. -/

namespace Sys2Proof.Machine

/-! ## What two words of one row share -/

section Covered
variable {r : Row} {w v : Word}

theorem and_mask_eq_of_covers (hw : r.covers w = true) (hv : r.covers v = true) : w &&& r.mask = v &&& r.mask := by
  rw [Row.covers, beq_iff_eq] at hw hv
  rw [hw, hv]

theorem opcode_eq_of_covers (hm : r.mask = 0x0000007f#32) (hw : r.covers w = true) (hv : r.covers v = true) :
    Field.opcode w = Field.opcode v := by
  have h := and_mask_eq_of_covers hw hv
  rw [hm, mask_opcode, mask_opcode] at h
  simpa using congrArg Field.opcode h

theorem funct3_eq_of_covers (hm : r.mask = 0x0000707f#32) (hw : r.covers w = true) (hv : r.covers v = true) :
    Field.opcode w = Field.opcode v ∧ Field.funct3 w = Field.funct3 v := by
  have h := and_mask_eq_of_covers hw hv
  rw [hm, mask_funct3, mask_funct3] at h
  exact ⟨by simpa using congrArg Field.opcode h, by simpa using congrArg Field.funct3 h⟩

theorem funct7_eq_of_covers (hm : r.mask = 0xfe00707f#32) (hw : r.covers w = true) (hv : r.covers v = true) :
    Field.opcode w = Field.opcode v ∧ Field.funct3 w = Field.funct3 v ∧ Field.funct7 w = Field.funct7 v := by
  have h := and_mask_eq_of_covers hw hv
  rw [hm, mask_funct7, mask_funct7] at h
  exact ⟨by simpa using congrArg Field.opcode h, by simpa using congrArg Field.funct3 h,
    by simpa using congrArg Field.funct7 h⟩

theorem eq_of_covers (hm : r.mask = 0xffffffff#32) (hw : r.covers w = true) (hv : r.covers v = true) : w = v := by
  have h := and_mask_eq_of_covers hw hv
  rw [hm] at h
  exact BitVec.and_allOnes.symm.trans (h.trans BitVec.and_allOnes)

end Covered

open Sys2Proof.Laws.RowMatch in
/-- The row of an instruction covers its word (`Laws/PerInstr`, row by row). -/
theorem row_covers_encode (i : Instr) : i.row.covers (encode i) = true := by
  cases i
  exacts [lui _ _, auipc _ _, jal _ _, jalr _ _ _ _, ecall, ebreak, csrrw _ _ _, csrrs _ _ _, csrrc _ _ _,
    csrrwi _ _ _, csrrsi _ _ _, csrrci _ _ _, add _ _ _, sub _ _ _, sll _ _ _ _, slt _ _ _ _, sltu _ _ _ _,
    xor _ _ _ _, srl _ _ _, sra _ _ _, or _ _ _ _, and _ _ _ _, addi _ _ _, slti _ _ _, sltiu _ _ _,
    xori _ _ _, ori _ _ _, andi _ _ _, slli _ _ _ _, srli _ _ _, srai _ _ _, lb _ _ _, lh _ _ _, lw _ _ _,
    lbu _ _ _, lhu _ _ _, sb _ _ _, sh _ _ _, sw _ _ _, beq _ _ _, bne _ _ _, blt _ _ _, bge _ _ _,
    bltu _ _ _, bgeu _ _ _]

/-- The tree is complete for the map: a word in the row of an instruction decodes to an instruction of that
row. -/
theorem decode_of_row_covers (i : Instr) {w : Word} (h : i.row.covers w = true) :
    (decode w).map Instr.row = .ok i.row := by
  cases i with
  | lui => rw [decode_of_lui ((opcode_eq_of_covers rfl h (row_covers_encode _)).trans (opcode_uType _ _ _))]; rfl
  | auipc => rw [decode_of_auipc ((opcode_eq_of_covers rfl h (row_covers_encode _)).trans (opcode_uType _ _ _))]; rfl
  | jal => rw [decode_of_jal ((opcode_eq_of_covers rfl h (row_covers_encode _)).trans (opcode_jType _ _ _))]; rfl
  | jalr => rw [decode_of_jalr ((opcode_eq_of_covers rfl h (row_covers_encode _)).trans (opcode_iType _ _ _ _ _))]; rfl
  | ecall | ebreak => rw [eq_of_covers rfl h (row_covers_encode _)]; rfl
  | add | sub | srl | sra | srli | srai =>
    obtain ⟨ho, h3, h7⟩ := funct7_eq_of_covers rfl h (row_covers_encode _)
    simp only [encode, opcode_rType, funct3_rType, funct7_rType] at ho h3 h7
    simp [decode_of_rtype, decode_of_aluImm, decodeRType, decodeAluImm, ho, h3, h7, Except.map, Instr.row]
  | sll | slt | sltu | xor | or | and | slli =>
    obtain ⟨ho, h3⟩ := funct3_eq_of_covers rfl h (row_covers_encode _)
    simp only [encode, opcode_rType, funct3_rType] at ho h3
    simp [decode_of_rtype, decode_of_aluImm, decodeRType, decodeAluImm, ho, h3, Except.map, Instr.row]
  | sb | sh | sw | beq | bne | blt | bge | bltu | bgeu =>
    obtain ⟨ho, h3⟩ := funct3_eq_of_covers rfl h (row_covers_encode _)
    simp only [encode, opcode_sType, funct3_sType, opcode_bType, funct3_bType] at ho h3
    simp [decode_of_store, decode_of_branch, decodeStore, decodeBranch, ho, h3, Except.map, Instr.row]
  | csrrw | csrrs | csrrc | csrrwi | csrrsi | csrrci | addi | slti | sltiu | xori | ori | andi | lb | lh | lw
  | lbu | lhu =>
    obtain ⟨ho, h3⟩ := funct3_eq_of_covers rfl h (row_covers_encode _)
    simp only [encode, opcode_iType, funct3_iType] at ho h3
    simp [decode_of_system, decode_of_aluImm, decode_of_load, decodeSystem, decodeAluImm, decodeLoad,
      ne_ecall_of_funct3, ne_ebreak_of_funct3, ho, h3, Except.map, Instr.row]

theorem row_covers_of_decode {w : Word} {i : Instr} (h : decode w = .ok i) : i.row.covers w = true := by
  obtain ⟨he, -⟩ := encode_decode h
  exact he ▸ row_covers_encode i

/-- The operands of an instruction play no part in its row, so each constructor has the row of its specimen. -/
theorem row_mem_opcodeTable (i : Instr) : i.row ∈ opcodeTable := by
  cases i <;> exact of_decide_eq_true rfl

theorem opcodeTable_nodup : opcodeTable.Nodup := by decide

/-- Settles O29: no word is in two rows, since the tree decodes a word of a row to an instruction of that
row. -/
theorem treeAgreesWithTheOpcodeMap : Obligations.TreeAgreesWithTheOpcodeMap := by
  refine ⟨rfl, fun w => ?_⟩
  show opcodeTable.filter (fun r => r.covers w) = _
  have hcover : ∀ r ∈ opcodeTable, r.covers w = true → (decode w).map Instr.row = .ok r := fun r hr h => by
    obtain ⟨i, -, rfl⟩ := List.mem_map.mp hr
    exact decode_of_row_covers i h
  cases hd : decode w with
  | error e =>
    refine List.filter_eq_nil_iff.mpr fun r hr h => ?_
    simpa [hd, Except.map] using hcover r hr h
  | ok i =>
    have hrow : ∀ r ∈ opcodeTable, r.covers w = (r == i.row) := fun r hr => by
      rw [Bool.eq_iff_iff, beq_iff_eq]
      constructor
      · intro h
        simpa [hd, Except.map, eq_comm] using hcover r hr h
      · rintro rfl
        exact row_covers_of_decode hd
    rw [List.filter_congr hrow, List.filter_beq,
      List.count_eq_one_of_mem opcodeTable_nodup (row_mem_opcodeTable i)]
    rfl

end Sys2Proof.Machine
end

section
/-! The obligations of 30_encoding.md about the decoder as a whole: the round trips, and the step as the spec's
function. -/

namespace Sys2Proof.Machine

/-- Settles O27, format by format. -/
theorem decodeOfEncodeIsTheInstruction : Obligations.DecodeOfEncodeIsTheInstruction := fun _ => decode_encode

/-- Settles O28, along the tree. -/
theorem encodeOfDecodeIsTheWord : Obligations.EncodeOfDecodeIsTheWord := fun _ _ => encode_decode

/-- Settles O48: a step drives the outputs from `classify`, and the flag says whether that is `Illegal`. -/
theorem stepIsRenderOfClassify : Obligations.StepIsRenderOfClassify := by
  intro s
  have hflag (d : DecodedInsn) : illegalFlag d = decide (d = .illegal) := by
    rw [Bool.eq_iff_iff, illegalFlag_eq_true_iff, decide_eq_true_iff]
  rw [step_eq_drive_classify, State.drive, hflag]

/-- Settles O11: the presented word decodes to the instruction. -/
theorem presentedInstructionRuns : Obligations.PresentedInstructionRuns :=
  fun _ _ _ hwf => step_of_decode_ok (decode_encode hwf)

/-- Settles O10, by the equations of `step`. -/
theorem stepRunsTheDecodedInstruction : Obligations.StepRunsTheDecodedInstruction :=
  fun _ => ⟨fun _ => step_of_decode_ok, fun _ => step_of_decode_error⟩

end Sys2Proof.Machine
end

section
/-! The obligations of 30_encoding.md about the immediates and the other fields (R63 to R70): the bits of each,
its range, and that a value in the range is determined by the bits that the format holds. -/

namespace Sys2Proof.Machine

/-- The residue of a signed value modulo a power of two is its low bits. -/
theorem toInt_emod_two_pow (v : Word) {n : Nat} (h : n ≤ 32) :
    v.toInt % ((2 ^ n : Nat) : Int) = (v.extractLsb' 0 n).toNat := by
  have hlow := toInt_low v h
  rw [BitVec.toInt_eq_toNat_bmod] at hlow
  calc v.toInt % ((2 ^ n : Nat) : Int)
      = ((v.extractLsb' 0 n).toNat : Int) % ((2 ^ n : Nat) : Int) := by
        rw [← Int.bmod_emod, ← hlow, Int.bmod_emod]
    _ = (v.extractLsb' 0 n).toNat := Int.emod_eq_of_lt (by omega) (by exact_mod_cast BitVec.isLt _)

theorem fitsImm12_range {v : Word} : fitsImm12 v = true ↔ -2048 ≤ v.toInt ∧ v.toInt ≤ 2047 :=
  decide_eq_true_iff

theorem fitsImmB_range {v : Word} :
    fitsImmB v = true ↔ -4096 ≤ v.toInt ∧ v.toInt ≤ 4094 ∧ v.toInt % 2 = 0 :=
  decide_eq_true_iff

theorem fitsImmJ_range {v : Word} :
    fitsImmJ v = true ↔ -1048576 ≤ v.toInt ∧ v.toInt ≤ 1048574 ∧ v.toInt % 2 = 0 :=
  decide_eq_true_iff

/-! ## A value in the range of a format is the sign extension of the bits that the format holds -/

/-- A sign extension is determined by the bits below it. -/
theorem eq_of_low_bits {u v : Word} {n : Nat} (hu : (u.extractLsb' 0 n).signExtend 32 = u)
    (hv : (v.extractLsb' 0 n).signExtend 32 = v) (h : ∀ j < n, u.getLsbD j = v.getLsbD j) : u = v := by
  rw [← hu, ← hv]
  congr 1
  apply BitVec.eq_of_getLsbD_eq; intro j hj
  simp [h j hj]

theorem immI_eq_of_csr {v w : Word} (hv : fitsImm12 v = true) (h : Field.csr w = v.extractLsb' 0 12) :
    Field.immI w = v :=
  (congrArg (BitVec.signExtend 32) h).trans ((fitsImm12_iff v).mp hv)

theorem immS_eq_of_fields {v w : Word} (hv : fitsImm12 v = true) (hhigh : Field.funct7 w = v.extractLsb' 5 7)
    (hlow : Field.rd w = v.extractLsb' 0 5) : Field.immS w = v := by
  have hbits : Field.funct7 w ++ Field.rd w = v.extractLsb' 0 12 := by
    rw [hhigh, hlow]
    exact BitVec.extractLsb'_append_extractLsb'_eq_extractLsb' rfl
  exact (congrArg (BitVec.signExtend 32) hbits).trans ((fitsImm12_iff v).mp hv)

theorem immB_eq_of_bits {v w : Word} (hv : fitsImmB v = true) (h12 : w.getLsbD 31 = v.getLsbD 12)
    (h11 : w.getLsbD 7 = v.getLsbD 11) (h10 : w.extractLsb' 25 6 = v.extractLsb' 5 6)
    (h4 : w.extractLsb' 8 4 = v.extractLsb' 1 4) : Field.immB w = v := by
  obtain ⟨hw, -⟩ := (fitsImmB_iff _).mp (fitsImmB_immB w)
  obtain ⟨hv, h0⟩ := (fitsImmB_iff v).mp hv
  refine eq_of_low_bits hw hv fun j hj => ?_
  rw [immB_getLsbD w (by omega)]
  split_ifs with hj1 hj5 hj11 hj12
  · rw [← h0, show j = 0 by omega]
  · convert slice_eq_iff.mp h4 _ (show j - 1 < 4 by omega) using 2 <;> omega
  · convert slice_eq_iff.mp h10 _ (show j - 5 < 6 by omega) using 2 <;> omega
  · rw [h11, show j = 11 by omega]
  · rw [h12, show j = 12 by omega]

theorem immJ_eq_of_bits {v w : Word} (hv : fitsImmJ v = true) (h20 : w.getLsbD 31 = v.getLsbD 20)
    (h19 : w.extractLsb' 12 8 = v.extractLsb' 12 8) (h11 : w.getLsbD 20 = v.getLsbD 11)
    (h10 : w.extractLsb' 21 10 = v.extractLsb' 1 10) : Field.immJ w = v := by
  obtain ⟨hw, -⟩ := (fitsImmJ_iff _).mp (fitsImmJ_immJ w)
  obtain ⟨hv, h0⟩ := (fitsImmJ_iff v).mp hv
  refine eq_of_low_bits hw hv fun j hj => ?_
  rw [immJ_getLsbD w (by omega)]
  split_ifs with hj1 hj11 hj12 hj20
  · rw [← h0, show j = 0 by omega]
  · convert slice_eq_iff.mp h10 _ (show j - 1 < 10 by omega) using 2 <;> omega
  · rw [h11, show j = 11 by omega]
  · convert slice_eq_iff.mp h19 _ (show j - 12 < 8 by omega) using 2 <;> omega
  · rw [h20, show j = 20 by omega]

/-! ## `imm_u` -/

theorem immU_high (w : Word) : (Field.immU w).extractLsb' 12 20 = w.extractLsb' 12 20 :=
  BitVec.extractLsb'_append_eq_left

theorem immU_low (w : Word) : (Field.immU w).extractLsb' 0 12 = 0 :=
  BitVec.extractLsb'_append_eq_right

theorem low_eq_zero_iff (v : Word) : v.extractLsb' 0 12 = 0 ↔ v.toInt % 4096 = 0 := by
  have h := toInt_emod_two_pow v (n := 12) (by decide)
  rw [show ((2 ^ 12 : Nat) : Int) = 4096 by norm_num] at h
  rw [h, ← BitVec.toNat_inj]
  exact Int.natCast_eq_zero.symm

theorem immU_eq_of_high {v w : Word} (hv : v.toInt % 4096 = 0) (h : w.extractLsb' 12 20 = v.extractLsb' 12 20) :
    Field.immU w = v := by
  calc Field.immU w = v.extractLsb' 12 20 ++ v.extractLsb' 0 12 := by
        rw [Field.immU, h, (low_eq_zero_iff v).mpr hv]
        rfl
    _ = v := BitVec.extractLsb'_append_extractLsb' (w := 20) (len := 12)

/-! ## The obligations -/

/-- Settles O32: the bits, the range as that of a 12-bit sign extension, and the inverse from the CSR places. -/
theorem immediateIIsTheSpecsBits : Obligations.ImmediateIIsTheSpecsBits := by
  intro w
  obtain ⟨hmin, hmax⟩ := fitsImm12_range.mp (fitsImm12_immI w)
  refine ⟨immI_low w, fun j hj hj' => ?_, hmin, hmax, fun v hlo hhi => ?_⟩
  · rw [immI_getLsbD w hj', if_neg (by omega)]
  · exact immI_eq_of_csr (fitsImm12_range.mpr ⟨hlo, hhi⟩)

/-- Settles O33: as for `imm_i`, with the bits in the places of `funct7` and `rd`. -/
theorem immediateSIsTheSpecsBits : Obligations.ImmediateSIsTheSpecsBits := by
  intro w
  obtain ⟨hmin, hmax⟩ := fitsImm12_range.mp (fitsImm12_immS w)
  refine ⟨immS_high w, immS_low w, fun j hj hj' => ?_, hmin, hmax, fun v hlo hhi => ?_⟩
  · rw [immS_getLsbD w hj', if_neg (by omega), if_neg (by omega)]
  · exact immS_eq_of_fields (fitsImm12_range.mpr ⟨hlo, hhi⟩)

/-- Settles O34: the bits place by place; the range is that of a 13-bit sign extension with bit 0 clear. -/
theorem immediateBIsTheSpecsBits : Obligations.ImmediateBIsTheSpecsBits := by
  intro w
  obtain ⟨hmin, hmax, heven⟩ := fitsImmB_range.mp (fitsImmB_immB w)
  refine ⟨immB_getLsbD w (by decide), immB_getLsbD w (by decide), ?_, ?_, immB_getLsbD w (by decide),
    fun j hj hj' => ?_, hmin, hmax, heven, fun v hlo hhi hev => ?_⟩
  · refine slice_eq_iff.mpr fun j hj => ?_
    rw [immB_getLsbD w (by omega), if_neg (by omega), if_neg (by omega), if_pos (by omega), ← Nat.add_assoc]
  · refine slice_eq_iff.mpr fun j hj => ?_
    rw [immB_getLsbD w (by omega), if_neg (by omega), if_pos (by omega), ← Nat.add_assoc]
  · rw [immB_getLsbD w hj', if_neg (by omega), if_neg (by omega), if_neg (by omega), if_neg (by omega)]
  · exact immB_eq_of_bits (fitsImmB_range.mpr ⟨hlo, hhi, hev⟩)

/-- Settles O35: the low 12 bits are clear, so the value is a multiple of 4096. -/
theorem immediateUIsTheSpecsBits : Obligations.ImmediateUIsTheSpecsBits := by
  intro w
  have hmul := (low_eq_zero_iff _).mp (immU_low w)
  have hmin := BitVec.le_toInt (Field.immU w)
  have hmax := BitVec.toInt_lt (x := Field.immU w)
  refine ⟨immU_high w, immU_low w, hmin, ?_, hmul, fun v => immU_eq_of_high⟩
  omega

/-- Settles O36: the bits place by place; the range is that of a 21-bit sign extension with bit 0 clear. -/
theorem immediateJIsTheSpecsBits : Obligations.ImmediateJIsTheSpecsBits := by
  intro w
  obtain ⟨hmin, hmax, heven⟩ := fitsImmJ_range.mp (fitsImmJ_immJ w)
  refine ⟨immJ_getLsbD w (by decide), ?_, immJ_getLsbD w (by decide), ?_, immJ_getLsbD w (by decide),
    fun j hj hj' => ?_, hmin, hmax, heven, fun v hlo hhi hev => ?_⟩
  · refine slice_eq_iff.mpr fun j hj => ?_
    rw [immJ_getLsbD w (by omega), if_neg (by omega), if_neg (by omega), if_neg (by omega), if_pos (by omega)]
  · refine slice_eq_iff.mpr fun j hj => ?_
    rw [immJ_getLsbD w (by omega), if_neg (by omega), if_pos (by omega), ← Nat.add_assoc]
  · rw [immJ_getLsbD w hj', if_neg (by omega), if_neg (by omega), if_neg (by omega), if_neg (by omega)]
  · exact immJ_eq_of_bits (fitsImmJ_range.mpr ⟨hlo, hhi, hev⟩)

/-- Settles O38: the residue modulo 32 is the low five bits, which are those of `rs2`. -/
theorem shiftAmountIsTheFlooredRemainder : Obligations.ShiftAmountIsTheFlooredRemainder := by
  intro w
  exact ⟨(toInt_emod_two_pow (Field.immI w) (n := 5) (by decide)).symm, rfl, shamt_eq_rs2 w⟩

/-- Settles O39: the CSR index is at the place of the I immediate. -/
theorem csrFieldsAreTheSpecsBits : Obligations.CsrFieldsAreTheSpecsBits :=
  fun w => ⟨rfl, (immI_low w).symm, rfl, rfl⟩

end Sys2Proof.Machine
end

section
/-! The obligations of 30_encoding.md about the operand formatter (R81 to R84): the numerals read back, and the
column of the mnemonic. -/

namespace Sys2Proof.Machine

theorem allDigits_append (base : Nat) (t u : Text) :
    allDigits base (t ++ u) = (allDigits base t && allDigits base u) :=
  List.all_append

theorem allDigits_digitChar {base d : Nat} (hd : d < base) (hb : base ≤ 16) :
    allDigits base [digitChar d] = true := by
  simp [allDigits, digitValue_digitChar (hd.trans_le hb), hd]

theorem allDigits_hexDigits (n v : Nat) : allDigits 16 (hexDigits n v) = true := by
  induction n generalizing v with
  | zero => rfl
  | succ n ih =>
    rw [hexDigits, allDigits_append, ih, allDigits_digitChar (Nat.mod_lt _ (by decide)) (by decide)]
    rfl

/-! ## The decimal numeral, along its own recursion -/

theorem allDigits_decu (n : Nat) : allDigits 10 (decu n) = true := by
  induction n using Nat.strongRecOn with
  | ind n ih =>
    by_cases h : n < 10
    · rw [decu_of_lt_ten h]
      exact allDigits_digitChar h (by decide)
    · rw [decu_of_ten_le (by omega), allDigits_append, ih (n / 10) (by omega),
        allDigits_digitChar (Nat.mod_lt _ (by decide)) (by decide)]
      rfl

theorem readNumeral_decu (n : Nat) : readNumeral 10 (decu n) = n := by
  induction n using Nat.strongRecOn with
  | ind n ih =>
    by_cases h : n < 10
    · simp [decu_of_lt_ten h, readNumeral, digitValue_digitChar (show n < 16 by omega)]
    · rw [decu_of_ten_le (by omega), readNumeral_append_singleton, ih (n / 10) (by omega),
        digitValue_digitChar (by omega)]
      omega

/-- No leading zero: only the numeral of 0 begins with `0`. -/
theorem eq_zero_of_decu_head {n : Nat} (h : (decu n).head? = some '0') : n = 0 := by
  induction n using Nat.strongRecOn with
  | ind n ih =>
    by_cases hn : n < 10
    · rw [decu_of_lt_ten hn, List.head?_cons, Option.some.injEq] at h
      exact (digitValue_digitChar (show n < 16 by omega)).symm.trans (congrArg digitValue h)
    · rw [decu_of_ten_le (by omega), List.head?_append_of_ne_nil _ (decu_ne_nil _)] at h
      have := ih (n / 10) (by omega) h
      omega

theorem two_le_reg_length (r : RegIdx) : 2 ≤ (reg r).length := by
  have := List.length_pos_iff.mpr (decu_ne_nil r.toNat)
  rw [reg, List.length_cons]
  omega

theorem dec_of_neg {v : Int} (h : v < 0) : dec v = '-' :: decu v.natAbs := by
  rw [dec, if_pos h, show (-v).toNat = v.natAbs by omega]

theorem dec_of_nonneg {v : Int} (h : 0 ≤ v) : dec v = decu v.natAbs := by
  rw [dec, if_neg (by omega), show v.toNat = v.natAbs by omega]

/-- Settles O42, along the recursion of the numeral. -/
theorem decimalFormsReadBack : Obligations.DecimalFormsReadBack := by
  refine ⟨fun n => ⟨allDigits_decu n, readNumeral_decu n, fun h => ?_⟩,
    fun r => ⟨rfl, two_le_reg_length r, reg_length_le r⟩, fun v => ⟨dec_of_neg, dec_of_nonneg⟩⟩
  rw [eq_zero_of_decu_head h]
  rfl

/-- Settles O43: the digits are those of `hexDigits`, which is given the residue. -/
theorem hexFormsReadBack : Obligations.HexFormsReadBack := by
  intro n v
  refine ⟨hexDigits n (v % 16 ^ n), by simp [hexN], hexDigits_length _ _, allDigits_hexDigits _ _, ?_⟩
  rw [readNumeral_hexDigits, Nat.mod_mod]

/-- Settles O44: at or beyond the column there is nothing to pad. -/
theorem mnemonicsArePaddedNotTruncated : Obligations.MnemonicsArePaddedNotTruncated := by
  intro cfg m
  refine ⟨rfl, pad_length cfg m, fun h => ?_⟩
  rw [pad, Nat.sub_eq_zero_of_le h, List.replicate_zero, List.append_nil]

end Sys2Proof.Machine
end

section
/-! SUPPORT. The decoded value of an instruction at an address: what `exec` drives, and what `classify` gives for
a word that decodes to it. -/

namespace Sys2Proof.Machine

/-- The decoded value that an instruction shows at the address `a` (R27): the fields of its word but the
unexamined bits (R80), with the absolute target for `jal` and the branches (R105, R170). -/
def valueOf (a : Word) : Instr → DecodedInsn
  | .lui rd imm20 => .upper .lui rd imm20
  | .auipc rd imm20 => .upper .auipc rd imm20
  | .jal rd off => .jal rd (a + off)
  | .jalr rd rs1 _ imm => .jalr rd rs1 imm
  | .ecall => .ecall
  | .ebreak => .ebreak
  | .csrrw rd csr rs1 => .csrReg .csrrw rd csr rs1
  | .csrrs rd csr rs1 => .csrReg .csrrs rd csr rs1
  | .csrrc rd csr rs1 => .csrReg .csrrc rd csr rs1
  | .csrrwi rd csr zimm => .csrImm .csrrwi rd csr zimm
  | .csrrsi rd csr zimm => .csrImm .csrrsi rd csr zimm
  | .csrrci rd csr zimm => .csrImm .csrrci rd csr zimm
  | .add rd rs1 rs2 => .aluReg .add rd rs1 rs2
  | .sub rd rs1 rs2 => .aluReg .sub rd rs1 rs2
  | .sll rd rs1 rs2 _ => .aluReg .sll rd rs1 rs2
  | .slt rd rs1 rs2 _ => .aluReg .slt rd rs1 rs2
  | .sltu rd rs1 rs2 _ => .aluReg .sltu rd rs1 rs2
  | .xor rd rs1 rs2 _ => .aluReg .xor rd rs1 rs2
  | .srl rd rs1 rs2 => .aluReg .srl rd rs1 rs2
  | .sra rd rs1 rs2 => .aluReg .sra rd rs1 rs2
  | .or rd rs1 rs2 _ => .aluReg .or rd rs1 rs2
  | .and rd rs1 rs2 _ => .aluReg .and rd rs1 rs2
  | .addi rd rs1 imm => .aluImm .addi rd rs1 imm
  | .slti rd rs1 imm => .aluImm .slti rd rs1 imm
  | .sltiu rd rs1 imm => .aluImm .sltiu rd rs1 imm
  | .xori rd rs1 imm => .aluImm .xori rd rs1 imm
  | .ori rd rs1 imm => .aluImm .ori rd rs1 imm
  | .andi rd rs1 imm => .aluImm .andi rd rs1 imm
  | .slli rd rs1 shamt _ => .shift .slli rd rs1 shamt
  | .srli rd rs1 shamt => .shift .srli rd rs1 shamt
  | .srai rd rs1 shamt => .shift .srai rd rs1 shamt
  | .lb rd rs1 imm => .load .lb rd rs1 imm
  | .lh rd rs1 imm => .load .lh rd rs1 imm
  | .lw rd rs1 imm => .load .lw rd rs1 imm
  | .lbu rd rs1 imm => .load .lbu rd rs1 imm
  | .lhu rd rs1 imm => .load .lhu rd rs1 imm
  | .sb rs2 rs1 imm => .store .sb rs2 rs1 imm
  | .sh rs2 rs1 imm => .store .sh rs2 rs1 imm
  | .sw rs2 rs1 imm => .store .sw rs2 rs1 imm
  | .beq rs1 rs2 off => .branch .beq rs1 rs2 (a + off)
  | .bne rs1 rs2 off => .branch .bne rs1 rs2 (a + off)
  | .blt rs1 rs2 off => .branch .blt rs1 rs2 (a + off)
  | .bge rs1 rs2 off => .branch .bge rs1 rs2 (a + off)
  | .bltu rs1 rs2 off => .branch .bltu rs1 rs2 (a + off)
  | .bgeu rs1 rs2 off => .branch .bgeu rs1 rs2 (a + off)

theorem exec_eq_drive_valueOf (i : Instr) (s : State) : exec i s = .next (s.drive (valueOf s.address i)) := by
  cases i <;> rfl

theorem valueOf_ne_illegal (a : Word) (i : Instr) : valueOf a i ≠ .illegal := by
  cases i <;> exact DecodedInsn.noConfusion

/-- Every instruction is a recognised outcome: its line, with `illegal` = 0. -/
theorem exec_shows (i : Instr) (s : State) :
    exec i s = shows s (valueOf s.address i) (render s.cfg (valueOf s.address i)) := by
  have hflag : illegalFlag (valueOf s.address i) = false := by
    rw [Bool.eq_false_iff, ne_eq, illegalFlag_eq_true_iff]
    exact valueOf_ne_illegal _ i
  rw [exec_eq_drive_valueOf, State.drive, hflag]

/-- `classify` is the decoder followed by the value of the instruction. -/
theorem classify_of_decode_ok {w : Word} {i : Instr} (h : decode w = .ok i) (a : Word) :
    classify a w = valueOf a i := by
  have hstep := step_of_decode_ok (s := State.reset.present a w) h
  rw [step_eq_drive_classify, exec_eq_drive_valueOf] at hstep
  injection hstep with hstate
  exact congrArg State.decoded hstate

theorem classify_of_decode_error {w : Word} {r : Reject} (h : decode w = .error r) (a : Word) :
    classify a w = .illegal := by
  have hstep := step_of_decode_error (s := State.reset.present a w) h
  rw [step_eq_drive_classify] at hstep
  injection hstep with hstate
  exact congrArg State.decoded hstate

/-- R92, R95: a line that ends in a displacement, with the displacement spelled out (R86). -/
theorem line2_disp (cfg : Config) (m op : Text) (imm : Word) (base : RegIdx) :
    line2 cfg m op (disp imm base) =
      pad cfg m ++ op ++ ',' :: dec imm.toInt ++ '(' :: reg base ++ [')'] := by
  simp [line2, disp]

theorem prefix_line2 (cfg : Config) (m a b : Text) : m <+: line2 cfg m a b := by
  simp [line2, pad]

theorem prefix_line3 (cfg : Config) (m a b c : Text) : m <+: line3 cfg m a b c := by
  simp [line3, pad]

/-- R84, R97, R99: the mnemonic of the row stands first in the line. -/
theorem row_name_prefix_render (cfg : Config) (a : Word) (i : Instr) :
    i.row.name <+: render cfg (valueOf a i) := by
  cases i with
  | ecall | ebreak => exact List.prefix_refl _
  | lui | auipc | jal | jalr | lb | lh | lw | lbu | lhu | sb | sh | sw => exact prefix_line2 _ _ _ _
  | _ => exact prefix_line3 _ _ _ _ _

end Sys2Proof.Machine
end

section
/-! The obligations of 30_encoding.md about the instructions: each shows its decoded value and its line (R87 to
R97) in every state. -/

namespace Sys2Proof.Machine

/-- Settles O1: both are lines of two operands. -/
theorem upperImmediateInstructionsComplete : Obligations.UpperImmediateInstructionsComplete :=
  fun s rd imm20 => ⟨exec_shows (.lui rd imm20) s, exec_shows (.auipc rd imm20) s⟩

/-- Settles O2: `f3` of `jalr` plays no part in the value. -/
theorem jumpInstructionsComplete : Obligations.JumpInstructionsComplete :=
  fun s rd rs1 f3 v => ⟨exec_shows (.jal rd v) s, exec_shows (.jalr rd rs1 f3 v) s⟩

/-- Settles O3: the CSR lines have three operands, the other two none. -/
theorem systemInstructionsComplete : Obligations.SystemInstructionsComplete :=
  fun s rd r csr zimm => ⟨exec_shows .ecall s, exec_shows .ebreak s,
    exec_shows (.csrrw rd csr r) s, exec_shows (.csrrs rd csr r) s, exec_shows (.csrrc rd csr r) s,
    exec_shows (.csrrwi rd csr zimm) s, exec_shows (.csrrsi rd csr zimm) s, exec_shows (.csrrci rd csr zimm) s⟩

/-- Settles O4: the argument `f7` plays no part in the value. -/
theorem registerAluInstructionsComplete : Obligations.RegisterAluInstructionsComplete :=
  fun s rd rs1 rs2 f7 => ⟨exec_shows (.add rd rs1 rs2) s, exec_shows (.sub rd rs1 rs2) s,
    exec_shows (.sll rd rs1 rs2 f7) s, exec_shows (.slt rd rs1 rs2 f7) s, exec_shows (.sltu rd rs1 rs2 f7) s,
    exec_shows (.xor rd rs1 rs2 f7) s, exec_shows (.srl rd rs1 rs2) s, exec_shows (.sra rd rs1 rs2) s,
    exec_shows (.or rd rs1 rs2 f7) s, exec_shows (.and rd rs1 rs2 f7) s⟩

/-- Settles O5: the argument `f7` of `slli` plays no part in the value. -/
theorem immediateAluInstructionsComplete : Obligations.ImmediateAluInstructionsComplete :=
  fun s rd rs1 imm shamt f7 => ⟨exec_shows (.addi rd rs1 imm) s, exec_shows (.slti rd rs1 imm) s,
    exec_shows (.sltiu rd rs1 imm) s, exec_shows (.xori rd rs1 imm) s, exec_shows (.ori rd rs1 imm) s,
    exec_shows (.andi rd rs1 imm) s, exec_shows (.slli rd rs1 shamt f7) s, exec_shows (.srli rd rs1 shamt) s,
    exec_shows (.srai rd rs1 shamt) s⟩

/-- Settles O6: the lines of `valueOf`. -/
theorem loadInstructionsComplete : Obligations.LoadInstructionsComplete :=
  fun s rd rs1 imm => ⟨exec_shows (.lb rd rs1 imm) s, exec_shows (.lh rd rs1 imm) s,
    exec_shows (.lw rd rs1 imm) s, exec_shows (.lbu rd rs1 imm) s, exec_shows (.lhu rd rs1 imm) s⟩

/-- Settles O7: the lines of `valueOf`, the stored register first. -/
theorem storeInstructionsComplete : Obligations.StoreInstructionsComplete :=
  fun s rs2 rs1 imm => ⟨exec_shows (.sb rs2 rs1 imm) s, exec_shows (.sh rs2 rs1 imm) s,
    exec_shows (.sw rs2 rs1 imm) s⟩

/-- Settles O8: the lines of `valueOf`, with the absolute target. -/
theorem branchInstructionsComplete : Obligations.BranchInstructionsComplete :=
  fun s rs1 rs2 off => ⟨exec_shows (.beq rs1 rs2 off) s, exec_shows (.bne rs1 rs2 off) s,
    exec_shows (.blt rs1 rs2 off) s, exec_shows (.bge rs1 rs2 off) s, exec_shows (.bltu rs1 rs2 off) s,
    exec_shows (.bgeu rs1 rs2 off) s⟩

/-- Settles O14: the first level of the tree decodes every word of the opcode. -/
theorem jalrWordsRenderTheDisplacement : Obligations.JalrWordsRenderTheDisplacement := by
  intro s ho
  rw [step_of_decode_ok (decode_of_jalr ho), exec_shows]
  exact congrArg (shows s _) (line2_disp _ _ _ _ _)

/-- Settles O30, by the shape of the line. -/
theorem linesBeginWithTheMnemonicOfTheRow : Obligations.LinesBeginWithTheMnemonicOfTheRow :=
  fun i s => ⟨_, exec_eq_drive_valueOf i s, row_name_prefix_render s.cfg s.address i⟩

end Sys2Proof.Machine
end

section
/-! The obligation of 30_encoding.md about the immediate multiplexer (R68). -/

namespace Sys2Proof.Machine

section Opcodes
variable {w : Word}

theorem immMux_of_upper (h : Field.opcode w ∈ [0x37#7, 0x17#7]) : immMux w = Field.immU w := by
  rcases List.mem_pair.mp h with h | h <;> simp [immMux, classOf, h]

theorem immMux_of_jal (h : Field.opcode w = 0x6f#7) : immMux w = Field.immJ w := by
  simp [immMux, classOf, h]

theorem immMux_of_immI (h : Field.opcode w ∈ [0x67#7, 0x03#7, 0x13#7]) : immMux w = Field.immI w := by
  simp only [List.mem_cons, List.not_mem_nil, or_false] at h
  rcases h with h | h | h <;> simp [immMux, classOf, h]

theorem immMux_of_store (h : Field.opcode w = 0x23#7) : immMux w = Field.immS w := by
  simp [immMux, classOf, h]

theorem immMux_of_branch (h : Field.opcode w = 0x63#7) : immMux w = Field.immB w := by
  simp [immMux, classOf, h]

theorem immMux_of_none (h : Field.opcode w ∈ [0x33#7, 0x73#7]) : immMux w = 0 := by
  rcases List.mem_pair.mp h with h | h <;> simp [immMux, classOf, h]

theorem immMux_of_unrecognized (h : Field.opcode w ∉
    [0x37#7, 0x17#7, 0x6f#7, 0x67#7, 0x73#7, 0x33#7, 0x13#7, 0x03#7, 0x23#7, 0x63#7]) : immMux w = 0 := by
  have hc : classOf w = .unrecognized := by
    have := opcode_cases w
    simp only [List.mem_cons, List.not_mem_nil, or_false, not_or] at h
    tauto
  rw [immMux, hc]

end Opcodes

/-- Which immediate a decoded value of the word `w` at the address `a` is made of, and that the multiplexer
selects it. -/
def FedByMux (a w : Word) : DecodedInsn → Prop
  | .upper _ _ imm20 => immMux w = Field.immU w ∧ imm20 = (immMux w).extractLsb' 12 20
  | .jal _ tgt => immMux w = Field.immJ w ∧ tgt = a + immMux w
  | .jalr _ _ imm => immMux w = Field.immI w ∧ imm = immMux w
  | .load _ _ _ imm => immMux w = Field.immI w ∧ imm = immMux w
  | .aluImm _ _ _ imm => immMux w = Field.immI w ∧ imm = immMux w
  | .shift _ _ _ sh => immMux w = Field.immI w ∧ sh = (immMux w).extractLsb' 0 5
  | .store _ _ _ imm => immMux w = Field.immS w ∧ imm = immMux w
  | .branch _ _ _ tgt => immMux w = Field.immB w ∧ tgt = a + immMux w
  | .csrReg _ _ _ _ => True
  | .csrImm _ _ _ _ => True
  | .ecall => True
  | .ebreak => True
  | .aluReg _ _ _ _ => True
  | .illegal => True

theorem fedByMux_upper {w : Word} (h : immMux w = Field.immU w) (a : Word) (op : UpperOp) :
    FedByMux a w (.upper op (Field.rd w) (Field.imm20 w)) :=
  ⟨h, by rw [h, immU_high]; rfl⟩

theorem fedByMux_classifySystem (a w : Word) : FedByMux a w (classifySystem w) := by
  unfold classifySystem
  split_ifs
  · trivial
  · trivial
  · split <;> trivial

theorem fedByMux_classifyRType (a w : Word) : FedByMux a w (classifyRType w) := by
  unfold classifyRType
  repeat' split
  all_goals trivial

theorem fedByMux_classifyAluImm {w : Word} (h : immMux w = Field.immI w) (a : Word) :
    FedByMux a w (classifyAluImm w) := by
  unfold classifyAluImm
  repeat' split
  all_goals simp [FedByMux, h, Field.shamt]

theorem fedByMux_classifyLoad {w : Word} (h : immMux w = Field.immI w) (a : Word) :
    FedByMux a w (classifyLoad w) := by
  unfold classifyLoad
  split <;> simp [FedByMux, h]

theorem fedByMux_classifyStore {w : Word} (h : immMux w = Field.immS w) (a : Word) :
    FedByMux a w (classifyStore w) := by
  unfold classifyStore
  split <;> simp [FedByMux, h]

theorem fedByMux_classifyBranch {w : Word} (h : immMux w = Field.immB w) (a : Word) :
    FedByMux a w (classifyBranch a w) := by
  unfold classifyBranch
  split <;> simp [FedByMux, h]

/-- Along the tree, the multiplexer of the word's class holds the immediate of the decoded value. -/
theorem fedByMux_classify (a w : Word) : FedByMux a w (classify a w) := by
  unfold classify
  split
  case h_1 h => exact fedByMux_upper (immMux_of_upper (by simp [h])) a .lui
  case h_2 h => exact fedByMux_upper (immMux_of_upper (by simp [h])) a .auipc
  case h_3 h => exact ⟨immMux_of_jal h, by rw [immMux_of_jal h]⟩
  case h_4 h =>
    have hm : immMux w = Field.immI w := immMux_of_immI (by simp [h])
    exact ⟨hm, hm.symm⟩
  case h_5 => exact fedByMux_classifySystem a w
  case h_6 => exact fedByMux_classifyRType a w
  case h_7 h => exact fedByMux_classifyAluImm (immMux_of_immI (by simp [h])) a
  case h_8 h => exact fedByMux_classifyLoad (immMux_of_immI (by simp [h])) a
  case h_9 h => exact fedByMux_classifyStore (immMux_of_store h) a
  case h_10 h => exact fedByMux_classifyBranch (immMux_of_branch h) a
  case h_11 => trivial

/-- Settles O37: the selection by opcode, and for each shape of decoded value the immediate it is made of. -/
theorem multiplexerFeedsTheDispatcher : Obligations.MultiplexerFeedsTheDispatcher := by
  intro a w
  have hfed {d : DecodedInsn} (h : classify a w = d) : FedByMux a w d := h ▸ fedByMux_classify a w
  exact ⟨immMux_of_upper, immMux_of_jal, immMux_of_immI, immMux_of_store, immMux_of_branch, immMux_of_none,
    immMux_of_unrecognized, fun _ _ _ => hfed, fun _ _ => hfed, fun _ _ _ => hfed, fun _ _ _ _ => hfed,
    fun _ _ _ _ => hfed, fun _ _ _ _ => hfed, fun _ _ _ _ => hfed, fun _ _ _ _ => hfed⟩

end Sys2Proof.Machine
end

section
/-! The obligation of 30_encoding.md about the unexamined bits (R80). Two words show the same value exactly when
their instructions agree once their unexamined bits are cleared (`canonical`). -/

namespace Sys2Proof.Machine

/-- The instruction with its unexamined bits cleared. -/
def canonical : Instr → Instr
  | .jalr rd rs1 _ imm => .jalr rd rs1 0 imm
  | .sll rd rs1 rs2 _ => .sll rd rs1 rs2 0
  | .slt rd rs1 rs2 _ => .slt rd rs1 rs2 0
  | .sltu rd rs1 rs2 _ => .sltu rd rs1 rs2 0
  | .xor rd rs1 rs2 _ => .xor rd rs1 rs2 0
  | .or rd rs1 rs2 _ => .or rd rs1 rs2 0
  | .and rd rs1 rs2 _ => .and rd rs1 rs2 0
  | .slli rd rs1 shamt _ => .slli rd rs1 shamt 0
  | i => i

/-- The places of the unexamined bits in the word of an instruction: `funct3` of `jalr`, `funct7` of the
others (R80). -/
def unexaminedOf : Instr → Word
  | .jalr _ _ _ _ => 0x00007000#32
  | .sll _ _ _ _ => 0xfe000000#32
  | .slt _ _ _ _ => 0xfe000000#32
  | .sltu _ _ _ _ => 0xfe000000#32
  | .xor _ _ _ _ => 0xfe000000#32
  | .or _ _ _ _ => 0xfe000000#32
  | .and _ _ _ _ => 0xfe000000#32
  | .slli _ _ _ _ => 0xfe000000#32
  | _ => 0

/-- The canonical instruction of a decoded value at the address `a`. -/
def instrOfValue (a : Word) : DecodedInsn → Option Instr
  | .upper .lui rd imm20 => some (.lui rd imm20)
  | .upper .auipc rd imm20 => some (.auipc rd imm20)
  | .jal rd tgt => some (.jal rd (tgt - a))
  | .jalr rd rs1 imm => some (.jalr rd rs1 0 imm)
  | .ecall => some .ecall
  | .ebreak => some .ebreak
  | .csrReg .csrrw rd csr rs1 => some (.csrrw rd csr rs1)
  | .csrReg .csrrs rd csr rs1 => some (.csrrs rd csr rs1)
  | .csrReg .csrrc rd csr rs1 => some (.csrrc rd csr rs1)
  | .csrImm .csrrwi rd csr zimm => some (.csrrwi rd csr zimm)
  | .csrImm .csrrsi rd csr zimm => some (.csrrsi rd csr zimm)
  | .csrImm .csrrci rd csr zimm => some (.csrrci rd csr zimm)
  | .aluReg .add rd rs1 rs2 => some (.add rd rs1 rs2)
  | .aluReg .sub rd rs1 rs2 => some (.sub rd rs1 rs2)
  | .aluReg .sll rd rs1 rs2 => some (.sll rd rs1 rs2 0)
  | .aluReg .slt rd rs1 rs2 => some (.slt rd rs1 rs2 0)
  | .aluReg .sltu rd rs1 rs2 => some (.sltu rd rs1 rs2 0)
  | .aluReg .xor rd rs1 rs2 => some (.xor rd rs1 rs2 0)
  | .aluReg .srl rd rs1 rs2 => some (.srl rd rs1 rs2)
  | .aluReg .sra rd rs1 rs2 => some (.sra rd rs1 rs2)
  | .aluReg .or rd rs1 rs2 => some (.or rd rs1 rs2 0)
  | .aluReg .and rd rs1 rs2 => some (.and rd rs1 rs2 0)
  | .aluImm .addi rd rs1 imm => some (.addi rd rs1 imm)
  | .aluImm .slti rd rs1 imm => some (.slti rd rs1 imm)
  | .aluImm .sltiu rd rs1 imm => some (.sltiu rd rs1 imm)
  | .aluImm .xori rd rs1 imm => some (.xori rd rs1 imm)
  | .aluImm .ori rd rs1 imm => some (.ori rd rs1 imm)
  | .aluImm .andi rd rs1 imm => some (.andi rd rs1 imm)
  | .shift .slli rd rs1 shamt => some (.slli rd rs1 shamt 0)
  | .shift .srli rd rs1 shamt => some (.srli rd rs1 shamt)
  | .shift .srai rd rs1 shamt => some (.srai rd rs1 shamt)
  | .load .lb rd rs1 imm => some (.lb rd rs1 imm)
  | .load .lh rd rs1 imm => some (.lh rd rs1 imm)
  | .load .lw rd rs1 imm => some (.lw rd rs1 imm)
  | .load .lbu rd rs1 imm => some (.lbu rd rs1 imm)
  | .load .lhu rd rs1 imm => some (.lhu rd rs1 imm)
  | .store .sb rs2 rs1 imm => some (.sb rs2 rs1 imm)
  | .store .sh rs2 rs1 imm => some (.sh rs2 rs1 imm)
  | .store .sw rs2 rs1 imm => some (.sw rs2 rs1 imm)
  | .branch .beq rs1 rs2 tgt => some (.beq rs1 rs2 (tgt - a))
  | .branch .bne rs1 rs2 tgt => some (.bne rs1 rs2 (tgt - a))
  | .branch .blt rs1 rs2 tgt => some (.blt rs1 rs2 (tgt - a))
  | .branch .bge rs1 rs2 tgt => some (.bge rs1 rs2 (tgt - a))
  | .branch .bltu rs1 rs2 tgt => some (.bltu rs1 rs2 (tgt - a))
  | .branch .bgeu rs1 rs2 tgt => some (.bgeu rs1 rs2 (tgt - a))
  | .illegal => none

/-! ## The value of an instruction says its canonical form, and no more -/

theorem instrOfValue_valueOf (a : Word) (i : Instr) : instrOfValue a (valueOf a i) = some (canonical i) := by
  have hoff (v : Word) : a + v - a = v := add_sub_cancel_left a v
  cases i <;> simp [valueOf, instrOfValue, canonical, hoff]

theorem valueOf_canonical (a : Word) (i : Instr) : valueOf a (canonical i) = valueOf a i := by
  cases i <;> rfl

theorem valueOf_eq_iff (a : Word) (i j : Instr) : valueOf a i = valueOf a j ↔ canonical i = canonical j := by
  constructor
  · intro h
    simpa [instrOfValue_valueOf] using congrArg (instrOfValue a) h
  · intro h
    rw [← valueOf_canonical, h, valueOf_canonical]

/-! ## The masks of R80 as fields -/

theorem mask_not_funct3 (w : Word) : w &&& ~~~0x00007000#32 =
    rType (Field.funct7 w) (Field.rs2 w) (Field.rs1 w) 0 (Field.rd w) (Field.opcode w) := by
  apply BitVec.eq_of_getLsbD_eq; intro j hj
  simp only [rType_getLsbD, BitVec.getLsbD_and, BitVec.getLsbD_not, Field.opcode, Field.rd, Field.rs1, Field.rs2,
    Field.funct7, BitVec.getLsbD_extractLsb']
  interval_cases j <;> simp

theorem mask_not_funct7 (w : Word) : w &&& ~~~0xfe000000#32 =
    rType 0 (Field.rs2 w) (Field.rs1 w) (Field.funct3 w) (Field.rd w) (Field.opcode w) := by
  apply BitVec.eq_of_getLsbD_eq; intro j hj
  simp only [rType_getLsbD, BitVec.getLsbD_and, BitVec.getLsbD_not, Field.opcode, Field.rd, Field.rs1, Field.rs2,
    Field.funct3, BitVec.getLsbD_extractLsb']
  interval_cases j <;> simp

theorem mask_not_zero (w : Word) : w &&& ~~~(0 : Word) = w := by
  rw [show ~~~(0 : Word) = BitVec.allOnes 32 from BitVec.not_zero, BitVec.and_allOnes]

section Masks
variable {w : Word} {f7 f7' : BitVec 7} {rs2 rs2' rs1 rs1' : BitVec 5} {f3 f3' : BitVec 3} {rd rd' : BitVec 5}
  {op op' : BitVec 7}

theorem rType_inj (h : rType f7 rs2 rs1 f3 rd op = rType f7' rs2' rs1' f3' rd' op') :
    f7 = f7' ∧ rs2 = rs2' ∧ rs1 = rs1' ∧ f3 = f3' ∧ rd = rd' ∧ op = op' :=
  ⟨by simpa using congrArg Field.funct7 h, by simpa using congrArg Field.rs2 h,
    by simpa using congrArg Field.rs1 h, by simpa using congrArg Field.funct3 h,
    by simpa using congrArg Field.rd h, by simpa using congrArg Field.opcode h⟩

theorem rType_of_masked_funct3 (h : w &&& ~~~0x00007000#32 = rType f7 rs2 rs1 0 rd op) :
    rType f7 rs2 rs1 (Field.funct3 w) rd op = w := by
  obtain ⟨rfl, rfl, rfl, -, rfl, rfl⟩ := rType_inj ((mask_not_funct3 w).symm.trans h)
  exact rType_fields w

theorem rType_of_masked_funct7 (h : w &&& ~~~0xfe000000#32 = rType 0 rs2 rs1 f3 rd op) :
    rType (Field.funct7 w) rs2 rs1 f3 rd op = w := by
  obtain ⟨-, rfl, rfl, rfl, rfl, rfl⟩ := rType_inj ((mask_not_funct7 w).symm.trans h)
  exact rType_fields w

end Masks

/-! ## The canonical word -/

theorem unexaminedBits_encode (i : Instr) : unexaminedBits (encode i) = unexaminedOf i := by
  cases i with
  | ecall | ebreak => rfl
  | _ => simp [unexaminedBits, classOf, encode, unexaminedOf]

theorem unexaminedOf_canonical (i : Instr) : unexaminedOf (canonical i) = unexaminedOf i := by
  cases i <;> rfl

theorem encode_canonical (i : Instr) : encode (canonical i) = encode i &&& ~~~unexaminedOf i := by
  cases i with
  | jalr => simp only [canonical, unexaminedOf, encode, iType, mask_not_funct3, funct7_rType, rs2_rType, rs1_rType,
      rd_rType, opcode_rType]
  | sll | slt | sltu | xor | or | and | slli =>
    simp only [canonical, unexaminedOf, encode, mask_not_funct7, rs2_rType, rs1_rType, funct3_rType, rd_rType,
      opcode_rType]
  | _ => exact (mask_not_zero _).symm

/-- A word that agrees with an instruction's word outside the unexamined bits is the word of an instruction with
the same canonical form. -/
theorem exists_encode_of_masked_eq {i : Instr} (hwf : i.wf = true) {w : Word}
    (h : w &&& ~~~unexaminedOf i = encode (canonical i)) :
    ∃ j, encode j = w ∧ j.wf = true ∧ canonical j = canonical i := by
  cases i with
  | jalr rd rs1 f3 imm => exact ⟨.jalr rd rs1 (Field.funct3 w) imm, rType_of_masked_funct3 h, hwf, rfl⟩
  | sll rd rs1 rs2 f7 => exact ⟨.sll rd rs1 rs2 (Field.funct7 w), rType_of_masked_funct7 h, rfl, rfl⟩
  | slt rd rs1 rs2 f7 => exact ⟨.slt rd rs1 rs2 (Field.funct7 w), rType_of_masked_funct7 h, rfl, rfl⟩
  | sltu rd rs1 rs2 f7 => exact ⟨.sltu rd rs1 rs2 (Field.funct7 w), rType_of_masked_funct7 h, rfl, rfl⟩
  | xor rd rs1 rs2 f7 => exact ⟨.xor rd rs1 rs2 (Field.funct7 w), rType_of_masked_funct7 h, rfl, rfl⟩
  | or rd rs1 rs2 f7 => exact ⟨.or rd rs1 rs2 (Field.funct7 w), rType_of_masked_funct7 h, rfl, rfl⟩
  | and rd rs1 rs2 f7 => exact ⟨.and rd rs1 rs2 (Field.funct7 w), rType_of_masked_funct7 h, rfl, rfl⟩
  | slli rd rs1 shamt f7 => exact ⟨.slli rd rs1 shamt (Field.funct7 w), rType_of_masked_funct7 h, rfl, rfl⟩
  | _ => exact ⟨_, h.symm.trans (mask_not_zero w), hwf, rfl⟩

theorem exists_decode_of_recognised {w : Word} (h : recognised w = true) : ∃ i, decode w = .ok i := by
  rw [recognised] at h
  split at h
  case h_1 i hi => exact ⟨i, hi⟩
  case h_2 => cases h

/-- A word shows the value of an instruction exactly when it is the word of an instruction with the same
canonical form. -/
theorem classify_eq_valueOf_iff (a w : Word) (i : Instr) :
    classify a w = valueOf a i ↔ ∃ j, decode w = .ok j ∧ canonical j = canonical i := by
  constructor
  · intro h
    cases hd : decode w with
    | error r =>
      rw [classify_of_decode_error hd] at h
      exact absurd h.symm (valueOf_ne_illegal a i)
    | ok j =>
      rw [classify_of_decode_ok hd] at h
      exact ⟨j, rfl, (valueOf_eq_iff a j i).mp h⟩
  · rintro ⟨j, hj, h⟩
    rw [classify_of_decode_ok hj]
    exact (valueOf_eq_iff a j i).mpr h

/-- Settles O40: both sides say that the words' instructions have one canonical form. -/
theorem unexaminedBitsAreTheOnlyOnesLost : Obligations.UnexaminedBitsAreTheOnlyOnesLost := by
  intro a w w' hw
  obtain ⟨i, hi⟩ := exists_decode_of_recognised hw
  obtain ⟨rfl, hwf⟩ := encode_decode hi
  rw [classify_of_decode_ok hi, classify_eq_valueOf_iff, unexaminedBits_encode, ← encode_canonical]
  constructor
  · rintro ⟨j, hj, hcanon⟩
    obtain ⟨rfl, -⟩ := encode_decode hj
    rw [← unexaminedOf_canonical i, ← hcanon, unexaminedOf_canonical, encode_canonical]
  · intro hmask
    obtain ⟨j, rfl, hjwf, hcanon⟩ := exists_encode_of_masked_eq hwf hmask
    exact ⟨j, decode_encode hjwf, hcanon⟩

end Sys2Proof.Machine
end

section
/-! The obligations of 40_upper_immediate.md: what a `lui` or `auipc` word answers (R100, R101), and what its line
keeps of the word (R102). -/

namespace Sys2Proof.Machine

/-- Settles O12: the first level of the tree decodes every word of the two opcodes. -/
theorem upperImmediateWordsRender : Obligations.UpperImmediateWordsRender :=
  fun s => ⟨fun ho => (step_of_decode_ok (decode_of_lui ho)).trans (exec_shows _ s),
    fun ho => (step_of_decode_ok (decode_of_auipc ho)).trans (exec_shows _ s)⟩

/-- R89: one comma, and the seven characters of the field, after the mnemonic and the register. -/
theorem renderUpper_length (cfg : Config) (op : UpperOp) (rd : RegIdx) (imm20 : BitVec 20) :
    (renderUpper cfg op rd imm20).length =
      max cfg.mnemonicWidth (upperName op).length + (reg rd).length + 8 := by
  rw [renderUpper, line2_length, hexN_length]

/-- R83: a text that ends in a hexadecimal form ends in the digits of its residue. -/
theorem append_hexN_reads_back (front : Text) (n v : Nat) :
    ∃ pre ds : Text, front ++ hexN n v = pre ++ "0x".toList ++ ds ∧ ds.length = n ∧
      allDigits 16 ds = true ∧ readNumeral 16 ds = v % 16 ^ n := by
  obtain ⟨ds, hform, hlen, hdigits, hread⟩ := hexFormsReadBack n v
  exact ⟨front, ds, by rw [hform, List.append_assoc], hlen, hdigits, hread⟩

/-- R89, R102: five digits hold the whole 20-bit field. -/
theorem renderUpper_reads_back (cfg : Config) (op : UpperOp) (rd : RegIdx) (imm20 : BitVec 20) :
    ∃ pre ds : Text, renderUpper cfg op rd imm20 = pre ++ "0x".toList ++ ds ∧ ds.length = 5 ∧
      allDigits 16 ds = true ∧ readNumeral 16 ds = imm20.toNat := by
  have hfits : imm20.toNat % 16 ^ 5 = imm20.toNat := Nat.mod_eq_of_lt imm20.isLt
  have hline : renderUpper cfg op rd imm20 =
      (pad cfg (upperName op) ++ reg rd ++ [',']) ++ hexN 5 imm20.toNat := by
    simp [renderUpper, line2]
  have hread := append_hexN_reads_back (pad cfg (upperName op) ++ reg rd ++ [',']) 5 imm20.toNat
  rwa [← hline, hfits] at hread

/-- Settles O46: the line is that of `renderUpper`, whose mnemonic has three or five characters by the opcode. -/
theorem upperImmediateLinesLoseNoBit : Obligations.UpperImmediateLinesLoseNoBit := by
  intro s t hstep hop
  obtain ⟨hlui, hauipc⟩ := upperImmediateWordsRender s
  rcases hop with ho | ho
  · obtain rfl := Host.Outcome.next.inj (hstep.symm.trans (hlui ho))
    rw [if_pos ho]
    exact ⟨renderUpper_length s.cfg .lui _ _, renderUpper_reads_back s.cfg .lui _ _⟩
  · obtain rfl := Host.Outcome.next.inj (hstep.symm.trans (hauipc ho))
    rw [if_neg (by rw [ho]; decide)]
    exact ⟨renderUpper_length s.cfg .auipc _ _, renderUpper_reads_back s.cfg .auipc _ _⟩

/-- Settles O31: five of the words are encodings, and the zero word has none of the ten opcodes. -/
theorem knownWordsDecode : Obligations.KnownWordsDecode :=
  ⟨decode_encode (i := .lui 10 0) rfl, decode_encode (i := .ebreak) rfl,
    decode_encode (i := .jal 0 (-16)) rfl, decode_encode (i := .sw 31 31 (-2048)) rfl,
    decode_encode (i := .bgeu 2 1 (-2048)) rfl, decode_of_unrecognized rfl⟩

end Sys2Proof.Machine
end

section
/-! The obligations of 41_jumps.md: what a `jal` word answers (R105), and the PC-relative law of `jal` and the
branches (R105, R177). -/

namespace Sys2Proof.Machine

/-- Settles O13: the first level of the tree decodes every word of the opcode. -/
theorem jalWordsRenderTheAbsoluteTarget : Obligations.JalWordsRenderTheAbsoluteTarget :=
  fun s ho => (step_of_decode_ok (decode_of_jal ho)).trans (exec_shows _ s)

/-- R105: addition of words is addition of the signed offset modulo 2^32, since the offset and its word have the
same residue. -/
theorem toNat_add_eq_emod (a off : Word) :
    ((a + off).toNat : Int) = ((a.toNat : Int) + off.toInt) % 2 ^ 32 := by
  have hoff : off.toInt % 2 ^ 32 = (off.toNat : Int) % 2 ^ 32 := by
    rw [BitVec.toInt_eq_toNat_bmod]
    exact Int.bmod_emod
  rw [BitVec.toNat_add, Int.natCast_emod, Int.natCast_add]
  exact Int.add_emod_eq_add_emod_left _ hoff.symm

/-- R105, R177: the text `line` ends in the digits of the offset `off` from the address `a`. -/
def EndsInTarget (line : Text) (a off : Word) : Prop :=
  ∃ pre ds : Text, line = pre ++ "0x".toList ++ ds ∧ ds.length = 8 ∧ allDigits 16 ds = true ∧
    (readNumeral 16 ds : Int) = ((a.toNat : Int) + off.toInt) % 2 ^ 32

/-- R83: eight digits hold the whole sum. -/
theorem endsInTarget_append_hexN (front : Text) (a off : Word) :
    EndsInTarget (front ++ hexN 8 (a + off).toNat) a off := by
  obtain ⟨pre, ds, hline, hlen, hdigits, hread⟩ := append_hexN_reads_back front 8 (a + off).toNat
  have hfits : (a + off).toNat % 16 ^ 8 = (a + off).toNat := Nat.mod_eq_of_lt (a + off).isLt
  exact ⟨pre, ds, hline, hlen, hdigits, by rw [hread, hfits, toNat_add_eq_emod]⟩

/-- R90: the target is the last operand of a `jal` line. -/
theorem endsInTarget_renderJal (cfg : Config) (rd : RegIdx) (a off : Word) :
    EndsInTarget (renderJal cfg rd (a + off)) a off := by
  have hline : renderJal cfg rd (a + off) =
      (pad cfg ['j', 'a', 'l'] ++ reg rd ++ [',']) ++ hexN 8 (a + off).toNat := by
    simp [renderJal, line2]
  exact hline ▸ endsInTarget_append_hexN _ a off

/-- R94: the target is the last operand of a branch line. -/
theorem endsInTarget_renderBranch (cfg : Config) (op : BranchOp) (rs1 rs2 : RegIdx) (a off : Word) :
    EndsInTarget (renderBranch cfg op rs1 rs2 (a + off)) a off := by
  have hline : renderBranch cfg op rs1 rs2 (a + off) =
      (pad cfg (branchName op) ++ reg rs1 ++ ',' :: reg rs2 ++ [',']) ++ hexN 8 (a + off).toNat := by
    simp [renderBranch, line3]
  exact hline ▸ endsInTarget_append_hexN _ a off

/-- Settles O45: a `jal` word has the line of `renderJal`, and a branch word that of `renderBranch` or, with
`illegal` = 1, the sentinel. -/
theorem targetsAreTheWrappedSum : Obligations.TargetsAreTheWrappedSum := by
  intro s t hstep
  obtain rfl := eq_drive_classify_of_step hstep
  rw [State.drive_text, State.drive_illegal]
  constructor
  · intro hj
    rw [classify_of_jal hj]
    exact endsInTarget_renderJal _ _ _ _
  · intro hb hlegal
    rw [classify_of_branch hb] at hlegal ⊢
    obtain ⟨op, hop⟩ | hill := classifyBranch_cases s.word
    · rw [hop]
      exact endsInTarget_renderBranch _ _ _ _ _ _
    · rw [hill] at hlegal
      cases hlegal

end Sys2Proof.Machine
end

section
/-! The obligations of 42_system.md: what a SYSTEM word answers (R110 to R118). -/

namespace Sys2Proof.Machine

/-- A word that is the encoding of an instruction shows the instruction's value and its line. -/
theorem step_shows_of_encode {s : State} {i : Instr} (hword : encode i = s.word) (hwf : i.wf = true) :
    step s = shows s (valueOf s.address i) (render s.cfg (valueOf s.address i)) :=
  (step_of_decode_ok (hword ▸ decode_encode hwf)).trans (exec_shows i s)

/-- R80: an instruction without unexamined bits has one word that shows its value. -/
theorem classify_eq_valueOf_iff_eq_encode {i : Instr} (hwf : i.wf = true) (hall : unexaminedOf i = 0) (a w : Word) :
    classify a w = valueOf a i ↔ w = encode i := by
  have hdecode : decode (encode i) = .ok i := decode_encode hwf
  have hrec : recognised (encode i) = true := by rw [recognised, hdecode]
  rw [← classify_of_decode_ok hdecode a, unexaminedBitsAreTheOnlyOnesLost a _ w hrec, unexaminedBits_encode, hall,
    mask_not_zero, mask_not_zero]

/-- R118: under `funct3` 000 the two full-word matches alone are accepted. -/
theorem decodeSystem_of_funct3_zero {w : Word} (h3 : Field.funct3 w = 0) (hecall : w ≠ 0x00000073#32)
    (hebreak : w ≠ 0x00100073#32) : decodeSystem w = .error .system := by
  rw [decodeSystem, if_neg hecall, if_neg hebreak, h3]
  rfl

/-- Settles O15: the two words are the encodings of `ecall` and `ebreak`, which have no unexamined bits. -/
theorem environmentWordsAreExact : Obligations.EnvironmentWordsAreExact := by
  intro s
  refine ⟨fun hw => step_shows_of_encode (i := .ecall) hw.symm rfl,
    fun hw => step_shows_of_encode (i := .ebreak) hw.symm rfl, fun t hstep => ?_, fun ho h3 hecall hebreak => ?_⟩
  · obtain rfl := eq_drive_classify_of_step hstep
    exact ⟨classify_eq_valueOf_iff_eq_encode (i := .ecall) rfl rfl s.address s.word,
      classify_eq_valueOf_iff_eq_encode (i := .ebreak) rfl rfl s.address s.word⟩
  · have hreject : decode s.word = .error .system :=
      (decode_of_system ho).trans (decodeSystem_of_funct3_zero h3 hecall hebreak)
    exact step_of_decode_error hreject

/-- Settles O16: the word is the encoding of the instruction made of its own fields. -/
theorem csrRegisterWordsRender : Obligations.CsrRegisterWordsRender :=
  fun _ ho => ⟨fun h3 => step_shows_of_encode (i := .csrrw _ _ _) (iType_csr h3 ho) rfl,
    fun h3 => step_shows_of_encode (i := .csrrs _ _ _) (iType_csr h3 ho) rfl,
    fun h3 => step_shows_of_encode (i := .csrrc _ _ _) (iType_csr h3 ho) rfl⟩

/-- Settles O17: the word is the encoding of the instruction made of its own fields, with `zimm` in the place of
`rs1` (R70). -/
theorem csrImmediateWordsRender : Obligations.CsrImmediateWordsRender :=
  fun _ ho => ⟨fun h3 => step_shows_of_encode (i := .csrrwi _ _ _) (iType_csr h3 ho) rfl,
    fun h3 => step_shows_of_encode (i := .csrrsi _ _ _) (iType_csr h3 ho) rfl,
    fun h3 => step_shows_of_encode (i := .csrrci _ _ _) (iType_csr h3 ho) rfl⟩

end Sys2Proof.Machine
end

section
/-! The obligations of 43_alu_register.md: what an R-TYPE word answers (R125 to R135). -/

namespace Sys2Proof.Machine

/-- R135: the two `funct3` arms that examine `funct7` accept two values of it. The premises `hzero` and `halt` are
what `simp` discharges to pass those two arms and take the last one. -/
theorem decodeRType_of_funct7_rejected {w : Word} (h3 : Field.funct3 w = 0b000#3 ∨ Field.funct3 w = 0b101#3)
    (hzero : Field.funct7 w ≠ 0b0000000#7) (halt : Field.funct7 w ≠ 0b0100000#7) :
    decodeRType w = .error .rtype := by
  rcases h3 with h3 | h3
  · simp only [decodeRType, h3]
  · simp only [decodeRType, h3]

/-- Settles O18: an accepted word is the encoding of the instruction made of its own fields; any other `funct7` is
rejected at the third level of the tree. -/
theorem registerAluWordsSelectedByFunct7 : Obligations.RegisterAluWordsSelectedByFunct7 := by
  intro s ho
  refine ⟨fun h3 h7 => step_shows_of_encode (i := .add _ _ _) (rType_of_fields h7 h3 ho) rfl,
    fun h3 h7 => step_shows_of_encode (i := .sub _ _ _) (rType_of_fields h7 h3 ho) rfl,
    fun h3 h7 => step_shows_of_encode (i := .srl _ _ _) (rType_of_fields h7 h3 ho) rfl,
    fun h3 h7 => step_shows_of_encode (i := .sra _ _ _) (rType_of_fields h7 h3 ho) rfl,
    fun h3 hzero halt => ?_⟩
  have hreject : decode s.word = .error .rtype :=
    (decode_of_rtype ho).trans (decodeRType_of_funct7_rejected h3 hzero halt)
  exact step_of_decode_error hreject

/-- Settles O19: the word is the encoding of the instruction made of its own fields, which keeps `funct7` as an
unexamined field. -/
theorem registerAluWordsIgnoringFunct7 : Obligations.RegisterAluWordsIgnoringFunct7 :=
  fun _ ho => ⟨fun h3 => step_shows_of_encode (i := .sll _ _ _ _) (rType_of_fields rfl h3 ho) rfl,
    fun h3 => step_shows_of_encode (i := .slt _ _ _ _) (rType_of_fields rfl h3 ho) rfl,
    fun h3 => step_shows_of_encode (i := .sltu _ _ _ _) (rType_of_fields rfl h3 ho) rfl,
    fun h3 => step_shows_of_encode (i := .xor _ _ _ _) (rType_of_fields rfl h3 ho) rfl,
    fun h3 => step_shows_of_encode (i := .or _ _ _ _) (rType_of_fields rfl h3 ho) rfl,
    fun h3 => step_shows_of_encode (i := .and _ _ _ _) (rType_of_fields rfl h3 ho) rfl⟩

end Sys2Proof.Machine
end

section
/-! The obligations of 44_alu_immediate.md: what an ALU-IMM word answers (R140 to R149). -/

namespace Sys2Proof.Machine

/-- R149: the one `funct3` arm that examines `funct7` accepts two values of it. The premises `hzero` and `halt` are
what `simp` discharges to take the last branch of that arm. -/
theorem decodeAluImm_of_funct7_rejected {w : Word} (h3 : Field.funct3 w = 0b101#3)
    (hzero : Field.funct7 w ≠ 0b0000000#7) (halt : Field.funct7 w ≠ 0b0100000#7) :
    decodeAluImm w = .error .aluImm := by
  simp only [decodeAluImm, h3]

/-- Settles O21: an accepted word is the encoding of the instruction made of its own fields, with the shift amount in
the place of `rs2` (R69); under `funct3` 101 any other `funct7` is rejected at the third level of the tree. -/
theorem shiftWordsRender : Obligations.ShiftWordsRender := by
  intro s ho
  refine ⟨fun h3 => step_shows_of_encode (i := .slli _ _ _ _) (rType_of_fields rfl h3 ho) rfl,
    fun h3 h7 => step_shows_of_encode (i := .srli _ _ _) (rType_of_fields h7 h3 ho) rfl,
    fun h3 h7 => step_shows_of_encode (i := .srai _ _ _) (rType_of_fields h7 h3 ho) rfl,
    fun h3 hzero halt => ?_⟩
  have hreject : decode s.word = .error .aluImm :=
    (decode_of_aluImm ho).trans (decodeAluImm_of_funct7_rejected h3 hzero halt)
  exact step_of_decode_error hreject

/-- Settles O20: the word is the encoding of the instruction made of its own fields and of its immediate, which fits
the twelve bits (R63). -/
theorem immediateAluWordsRender : Obligations.ImmediateAluWordsRender :=
  fun s ho =>
    have himm : fitsImm12 (Field.immI s.word) = true := fitsImm12_immI s.word
    ⟨fun h3 => step_shows_of_encode (i := .addi _ _ _) (iType_immI h3 ho) himm,
      fun h3 => step_shows_of_encode (i := .slti _ _ _) (iType_immI h3 ho) himm,
      fun h3 => step_shows_of_encode (i := .sltiu _ _ _) (iType_immI h3 ho) himm,
      fun h3 => step_shows_of_encode (i := .xori _ _ _) (iType_immI h3 ho) himm,
      fun h3 => step_shows_of_encode (i := .ori _ _ _) (iType_immI h3 ho) himm,
      fun h3 => step_shows_of_encode (i := .andi _ _ _) (iType_immI h3 ho) himm⟩

end Sys2Proof.Machine
end

section
/-! The obligation of 45_loads.md: what a LOAD word with an accepted `funct3` answers (R155 to R159). -/

namespace Sys2Proof.Machine

/-- R92: `loadShows` writes out the displacement that the line of a load has as its second operand. -/
theorem shows_render_load (s : State) (op : LoadOp) {name : String} (hname : name.toList = loadName op) :
    shows s (.load op (Field.rd s.word) (Field.rs1 s.word) (Field.immI s.word))
      (render s.cfg (.load op (Field.rd s.word) (Field.rs1 s.word) (Field.immI s.word))) = loadShows s op name := by
  rw [loadShows, hname]
  exact congrArg (shows s _) (line2_disp _ _ _ _ _)

/-- Settles O22: the word is the encoding of the instruction made of its own fields and of its immediate, which fits
the twelve bits (R63). -/
theorem loadWordsRender : Obligations.LoadWordsRender :=
  fun s ho =>
    have himm : fitsImm12 (Field.immI s.word) = true := fitsImm12_immI s.word
    ⟨fun h3 => (step_shows_of_encode (i := .lb _ _ _) (iType_immI h3 ho) himm).trans (shows_render_load s .lb rfl),
      fun h3 => (step_shows_of_encode (i := .lh _ _ _) (iType_immI h3 ho) himm).trans (shows_render_load s .lh rfl),
      fun h3 => (step_shows_of_encode (i := .lw _ _ _) (iType_immI h3 ho) himm).trans (shows_render_load s .lw rfl),
      fun h3 => (step_shows_of_encode (i := .lbu _ _ _) (iType_immI h3 ho) himm).trans (shows_render_load s .lbu rfl),
      fun h3 => (step_shows_of_encode (i := .lhu _ _ _) (iType_immI h3 ho) himm).trans (shows_render_load s .lhu rfl)⟩

end Sys2Proof.Machine
end

section
/-! The obligation of 46_stores.md: what a STORE word with an accepted `funct3` answers (R165 to R167). -/

namespace Sys2Proof.Machine

/-- R95: `storeShows` writes out the displacement that the line of a store has after the stored register. -/
theorem shows_render_store (s : State) (op : StoreOp) {name : String} (hname : name.toList = storeName op) :
    shows s (.store op (Field.rs2 s.word) (Field.rs1 s.word) (Field.immS s.word))
      (render s.cfg (.store op (Field.rs2 s.word) (Field.rs1 s.word) (Field.immS s.word))) =
    storeShows s op name := by
  rw [storeShows, hname]
  exact congrArg (shows s _) (line2_disp _ _ _ _ _)

/-- Settles O23: the word is the encoding of the instruction made of its own fields and of its immediate, which fits
the twelve bits (R64). -/
theorem storeWordsRender : Obligations.StoreWordsRender :=
  fun s ho =>
    have himm : fitsImm12 (Field.immS s.word) = true := fitsImm12_immS s.word
    ⟨fun h3 => (step_shows_of_encode (i := .sb _ _ _) (sType_immS h3 ho) himm).trans (shows_render_store s .sb rfl),
      fun h3 => (step_shows_of_encode (i := .sh _ _ _) (sType_immS h3 ho) himm).trans (shows_render_store s .sh rfl),
      fun h3 => (step_shows_of_encode (i := .sw _ _ _) (sType_immS h3 ho) himm).trans (shows_render_store s .sw rfl)⟩

end Sys2Proof.Machine
end

section
/-! The obligation of 47_branches.md: what a B-TYPE word with an accepted `funct3` answers (R170 to R175). -/

namespace Sys2Proof.Machine

/-- Settles O24: the word is the encoding of the instruction made of its own fields and of its offset, which fits
the format (R65). -/
theorem branchWordsRenderTheAbsoluteTarget : Obligations.BranchWordsRenderTheAbsoluteTarget :=
  fun s ho =>
    have hoff : fitsImmB (Field.immB s.word) = true := fitsImmB_immB s.word
    ⟨fun h3 => step_shows_of_encode (i := .beq _ _ _) (bType_immB h3 ho) hoff,
      fun h3 => step_shows_of_encode (i := .bne _ _ _) (bType_immB h3 ho) hoff,
      fun h3 => step_shows_of_encode (i := .blt _ _ _) (bType_immB h3 ho) hoff,
      fun h3 => step_shows_of_encode (i := .bge _ _ _) (bType_immB h3 ho) hoff,
      fun h3 => step_shows_of_encode (i := .bltu _ _ _) (bType_immB h3 ho) hoff,
      fun h3 => step_shows_of_encode (i := .bgeu _ _ _) (bType_immB h3 ho) hoff⟩

end Sys2Proof.Machine
end

section
/-! The obligations of 48_illegal.md about an evaluation: it completes with a line (R182), and the words that end
in the sentinel are those outside the opcode map (R180), which the tree rejects level by level (R181). -/

namespace Sys2Proof.Machine

/-- R11, R182: the length of any line; the sentinel need not be printable for it. -/
theorem render_length_bounds {cfg : Config} (hne : cfg.illegalText ≠ []) {d : DecodedInsn}
    (hi : immInRange d = true) : 1 ≤ (render cfg d).length ∧ (render cfg d).length ≤ textMax cfg := by
  by_cases hd : d = .illegal
  · subst hd
    exact ⟨List.length_pos_iff.mpr hne, le_max_right _ _⟩
  · obtain ⟨c, hhead, -⟩ := (cleanLine_render cfg hd).head_lower
    exact ⟨List.length_pos_of_mem (List.mem_of_head? hhead),
      (render_length_le cfg hd hi).trans (le_max_left _ _)⟩

/-- Settles O49: a step drives the line of `classify`, whose immediates print in the lengths that R11 counts. -/
theorem everyEvaluationCompletesWithALine : Obligations.EveryEvaluationCompletesWithALine :=
  fun s hne => ⟨_, step_eq_drive_classify s, render_length_bounds hne (immInRange_classify s.address s.word)⟩

/-! ## The words outside the opcode map (R180) -/

/-- R99: a word that matches a row decodes to an instruction of that row. -/
theorem exists_decode_of_covers {r : Row} {w : Word} (hr : r ∈ opcodeTable) (h : r.covers w = true) :
    ∃ i, decode w = .ok i ∧ i.row = r := by
  obtain ⟨j, -, rfl⟩ := List.mem_map.mp hr
  have hrow := decode_of_row_covers j h
  cases hd : decode w with
  | error e => simp [hd, Except.map] at hrow
  | ok i => exact ⟨i, rfl, by simpa [hd, Except.map] using hrow⟩

/-- R99: a word that matches no row is rejected. -/
theorem exists_error_of_not_covers {w : Word} (h : ∀ r ∈ opcodeTable, r.covers w = false) :
    ∃ e, decode w = .error e := by
  cases hd : decode w with
  | error e => exact ⟨e, rfl⟩
  | ok i =>
    have hcovers := row_covers_of_decode hd
    rw [h i.row (row_mem_opcodeTable i)] at hcovers
    cases hcovers

/-- Settles O25: the map and the tree recognise the same words (R99). -/
theorem wordsOutsideTheMapGiveTheSentinel : Obligations.WordsOutsideTheMapGiveTheSentinel := by
  refine fun s => ⟨fun hout => ?_, fun r hr hmatch => ?_⟩
  · obtain ⟨e, he⟩ := exists_error_of_not_covers fun r hr => beq_false_of_ne (hout r hr)
    exact step_of_decode_error he
  · obtain ⟨i, hi, -⟩ := exists_decode_of_covers hr (beq_iff_eq.mpr hmatch)
    exact ⟨_, (step_of_decode_ok hi).trans (exec_shows i s), rfl, valueOf_ne_illegal s.address i⟩

/-! ## The rejections, level by level (R181) -/

section Levels
variable {w : Word}

/-- Level 1. -/
theorem classOf_eq_unrecognized_iff : classOf w = .unrecognized ↔ Field.opcode w ∉
    [0x37#7, 0x17#7, 0x6f#7, 0x67#7, 0x73#7, 0x33#7, 0x13#7, 0x03#7, 0x23#7, 0x63#7] := by
  unfold classOf
  split <;> simp_all

/-- R118 -/
theorem decodeSystem_rejects_iff : (∃ r, decodeSystem w = .error r) ↔
    w ≠ 0x00000073#32 ∧ w ≠ 0x00100073#32 ∧ Field.funct3 w ∈ [0b000#3, 0b100#3] := by
  unfold decodeSystem
  split_ifs with hecall hebreak
  · simp [hecall]
  · simp [hebreak]
  · rcases funct3_cases (Field.funct3 w) with h3 | h3 | h3 | h3 | h3 | h3 | h3 | h3 <;> simp [h3, hecall, hebreak]

/-- R135 -/
theorem decodeRType_rejects_iff : (∃ r, decodeRType w = .error r) ↔
    Field.funct3 w ∈ [0b000#3, 0b101#3] ∧ Field.funct7 w ∉ [0b0000000#7, 0b0100000#7] := by
  unfold decodeRType
  rcases funct3_cases (Field.funct3 w) with h3 | h3 | h3 | h3 | h3 | h3 | h3 | h3 <;>
    rcases funct7_cases (Field.funct7 w) with h7 | h7 | h7 <;> simp [h3, h7]

/-- R149 -/
theorem decodeAluImm_rejects_iff : (∃ r, decodeAluImm w = .error r) ↔
    Field.funct3 w = 0b101#3 ∧ Field.funct7 w ∉ [0b0000000#7, 0b0100000#7] := by
  unfold decodeAluImm
  rcases funct3_cases (Field.funct3 w) with h3 | h3 | h3 | h3 | h3 | h3 | h3 | h3 <;>
    rcases funct7_cases (Field.funct7 w) with h7 | h7 | h7 <;> simp [h3, h7]

/-- R160 -/
theorem decodeLoad_rejects_iff : (∃ r, decodeLoad w = .error r) ↔
    Field.funct3 w ∈ [0b011#3, 0b110#3, 0b111#3] := by
  unfold decodeLoad
  rcases funct3_cases (Field.funct3 w) with h3 | h3 | h3 | h3 | h3 | h3 | h3 | h3 <;> simp [h3]

/-- R168 -/
theorem decodeStore_rejects_iff : (∃ r, decodeStore w = .error r) ↔
    Field.funct3 w ∈ [0b011#3, 0b100#3, 0b101#3, 0b110#3, 0b111#3] := by
  unfold decodeStore
  rcases funct3_cases (Field.funct3 w) with h3 | h3 | h3 | h3 | h3 | h3 | h3 | h3 <;> simp [h3]

/-- R176 -/
theorem decodeBranch_rejects_iff : (∃ r, decodeBranch w = .error r) ↔
    Field.funct3 w ∈ [0b010#3, 0b011#3] := by
  unfold decodeBranch
  rcases funct3_cases (Field.funct3 w) with h3 | h3 | h3 | h3 | h3 | h3 | h3 | h3 <;> simp [h3]

/-- The table of R181. -/
theorem decode_rejects_iff (w : Word) : (∃ r, decode w = .error r) ↔
    Field.opcode w ∉ [0x37#7, 0x17#7, 0x6f#7, 0x67#7, 0x73#7, 0x33#7, 0x13#7, 0x03#7, 0x23#7, 0x63#7] ∨
    (Field.opcode w = 0x73#7 ∧ w ≠ 0x00000073#32 ∧ w ≠ 0x00100073#32 ∧ Field.funct3 w ∈ [0b000#3, 0b100#3]) ∨
    (Field.opcode w = 0x03#7 ∧ Field.funct3 w ∈ [0b011#3, 0b110#3, 0b111#3]) ∨
    (Field.opcode w = 0x23#7 ∧ Field.funct3 w ∈ [0b011#3, 0b100#3, 0b101#3, 0b110#3, 0b111#3]) ∨
    (Field.opcode w = 0x63#7 ∧ Field.funct3 w ∈ [0b010#3, 0b011#3]) ∨
    (Field.opcode w = 0x33#7 ∧ Field.funct3 w ∈ [0b000#3, 0b101#3] ∧
      Field.funct7 w ∉ [0b0000000#7, 0b0100000#7]) ∨
    (Field.opcode w = 0x13#7 ∧ Field.funct3 w = 0b101#3 ∧ Field.funct7 w ∉ [0b0000000#7, 0b0100000#7]) := by
  rcases opcode_cases w with ho | ho | ho | ho | ho | ho | ho | ho | ho | ho | hc
  · simp [decode_of_lui, ho]
  · simp [decode_of_auipc, ho]
  · simp [decode_of_jal, ho]
  · simp [decode_of_jalr, ho]
  · simp [decode_of_system ho, decodeSystem_rejects_iff, ho]
  · simp [decode_of_rtype ho, decodeRType_rejects_iff, ho]
  · simp [decode_of_aluImm ho, decodeAluImm_rejects_iff, ho]
  · simp [decode_of_load ho, decodeLoad_rejects_iff, ho]
  · simp [decode_of_store ho, decodeStore_rejects_iff, ho]
  · simp [decode_of_branch ho, decodeBranch_rejects_iff, ho]
  · exact iff_of_true ⟨_, decode_of_unrecognized hc⟩ (.inl (classOf_eq_unrecognized_iff.mp hc))

end Levels

/-- R180: the flag of an evaluation says whether the tree rejects the word. -/
theorem illegal_iff_rejected {s t : State} (h : step s = .next t) :
    t.illegal = true ↔ ∃ r, decode s.word = .error r := by
  obtain rfl := eq_drive_classify_of_step h
  rw [State.drive_illegal, illegalFlag_eq_true_iff]
  cases hd : decode s.word with
  | error r => simp [classify_of_decode_error hd]
  | ok i => simp [classify_of_decode_ok hd, valueOf_ne_illegal]

/-- Settles O26, opcode by opcode. -/
theorem illegalWordsByLevel : Obligations.IllegalWordsByLevel :=
  fun s _ h => (illegal_iff_rejected h).trans (decode_rejects_iff s.word)

end Sys2Proof.Machine
end

section
/-! The obligation of 48_illegal.md about the number of recognised words (R181): each is in exactly one row of the
opcode map (R99), and a row has one word for every value of the bits outside its mask. -/

namespace Sys2Proof.Machine

/-- A value for each bit that the row's mask leaves free. -/
abbrev FreeBits (r : Row) : Type := {j : Fin 32 // r.mask.getLsbD j = false} → Bool

/-- The word of the row with the given free bits; the others are the pattern's. -/
def wordOfFreeBits (r : Row) (f : FreeBits r) : Word :=
  BitVec.ofFnLE fun j => if h : r.mask.getLsbD j = false then f ⟨j, h⟩ else r.pattern.getLsbD j

theorem wordOfFreeBits_free (r : Row) (f : FreeBits r) (j : {j : Fin 32 // r.mask.getLsbD j = false}) :
    (wordOfFreeBits r f).getLsbD j = f j := by
  simp only [wordOfFreeBits, BitVec.getLsbD_ofFnLE, j.1.isLt, j.2, dite_true]

theorem wordOfFreeBits_masked {r : Row} (f : FreeBits r) {j : Fin 32} (hj : r.mask.getLsbD j = true) :
    (wordOfFreeBits r f).getLsbD j = r.pattern.getLsbD j := by
  simp only [wordOfFreeBits, BitVec.getLsbD_ofFnLE, j.isLt, hj, Bool.true_eq_false, dite_true, dite_false]

/-- A pattern has no bit outside its mask (R99). -/
theorem pattern_and_mask {r : Row} (hr : r ∈ opcodeTable) : r.pattern &&& r.mask = r.pattern := by
  revert r
  decide

/-- A row fixes the bits under its mask, and no other. -/
theorem covers_iff_getLsbD {r : Row} (hr : r ∈ opcodeTable) {w : Word} : r.covers w = true ↔
    ∀ j : Fin 32, r.mask.getLsbD j = true → w.getLsbD j = r.pattern.getLsbD j := by
  rw [Row.covers, beq_iff_eq]
  constructor
  · intro h j hj
    simp [← h, hj]
  · intro h
    apply BitVec.eq_of_getLsbD_eq; intro j hj
    rw [BitVec.getLsbD_and]
    cases hm : r.mask.getLsbD j with
    | true => rw [Bool.and_true, h ⟨j, hj⟩ hm]
    | false => rw [Bool.and_false, ← pattern_and_mask hr, BitVec.getLsbD_and, hm, Bool.and_false]

theorem covers_wordOfFreeBits {r : Row} (hr : r ∈ opcodeTable) (f : FreeBits r) :
    r.covers (wordOfFreeBits r f) = true :=
  (covers_iff_getLsbD hr).mpr fun _ => wordOfFreeBits_masked f

/-- A word of the row is determined by its free bits. -/
theorem wordOfFreeBits_of_covers {r : Row} (hr : r ∈ opcodeTable) {w : Word} (h : r.covers w = true) :
    wordOfFreeBits r (fun j => w.getLsbD j) = w := by
  apply BitVec.eq_of_getLsbD_eq; intro j hj
  cases hm : r.mask.getLsbD j with
  | true =>
    exact (wordOfFreeBits_masked (j := ⟨j, hj⟩) _ hm).trans ((covers_iff_getLsbD hr).mp h ⟨j, hj⟩ hm).symm
  | false => exact wordOfFreeBits_free r _ ⟨⟨j, hj⟩, hm⟩

theorem wordOfFreeBits_injective (r : Row) : Function.Injective (wordOfFreeBits r) := by
  intro f g h
  funext j
  rw [← wordOfFreeBits_free r f j, h, wordOfFreeBits_free]

theorem recognised_of_covers {r : Row} (hr : r ∈ opcodeTable) {w : Word} (h : r.covers w = true) :
    recognised w = true := by
  obtain ⟨i, hi, -⟩ := exists_decode_of_covers hr h
  rw [recognised, hi]

/-- R99: no word is in two rows. -/
theorem row_unique {r r' : Row} (hr : r ∈ opcodeTable) (hr' : r' ∈ opcodeTable) {w : Word}
    (h : r.covers w = true) (h' : r'.covers w = true) : r = r' := by
  obtain ⟨i, hi, rfl⟩ := exists_decode_of_covers hr h
  obtain ⟨i', hi', rfl⟩ := exists_decode_of_covers hr' h'
  rw [hi] at hi'
  cases hi'
  rfl

/-- A recognised word as its row with its free bits. -/
def wordOfRow (x : Σ r : {r // r ∈ opcodeTable}, FreeBits r) : {w : Word // recognised w = true} :=
  ⟨wordOfFreeBits x.1 x.2, recognised_of_covers x.1.2 (covers_wordOfFreeBits x.1.2 x.2)⟩

theorem wordOfRow_bijective : Function.Bijective wordOfRow := by
  constructor
  · rintro ⟨⟨r, hr⟩, f⟩ ⟨⟨r', hr'⟩, f'⟩ h
    have hword : wordOfFreeBits r f = wordOfFreeBits r' f' := congrArg Subtype.val h
    obtain rfl := row_unique hr hr' (covers_wordOfFreeBits hr f) (hword ▸ covers_wordOfFreeBits hr' f')
    rw [wordOfFreeBits_injective r hword]
  · rintro ⟨w, hw⟩
    obtain ⟨i, hi⟩ := exists_decode_of_recognised hw
    exact ⟨⟨⟨i.row, row_mem_opcodeTable i⟩, fun j => w.getLsbD j⟩,
      Subtype.ext (wordOfFreeBits_of_covers (row_mem_opcodeTable i) (row_covers_of_decode hi))⟩

/-- R181: the sizes of the 45 rows. -/
theorem card_rows : Fintype.card (Σ r : {r // r ∈ opcodeTable}, FreeBits r) = 272826370 := by
  simp only [Fintype.card_sigma, Fintype.card_fun, Fintype.card_bool]
  decide

/-- Settles O41, row by row. -/
theorem recognisedWordsAreCounted : Obligations.RecognisedWordsAreCounted :=
  ⟨(Equiv.ofBijective wordOfRow wordOfRow_bijective).symm.trans (Fintype.equivFinOfCardEq card_rows)⟩

end Sys2Proof.Machine
end

section
/-! The obligations of 70_reset_and_hazards.md: a sequence of evaluations and a listing (R208, R211). -/

namespace Sys2Proof.Machine

theorem illegalFlag_eq_decide (d : DecodedInsn) : illegalFlag d = decide (d = .illegal) := by
  rw [Bool.eq_iff_iff, illegalFlag_eq_true_iff, decide_eq_true_iff]

/-- R211: the first pair is evaluated, then the others from the state it leads to. -/
theorem evaluate_cons_of_next {s t u : State} {p : Word × Word} {ps : List (Word × Word)} {lines : List Line}
    (hstep : step (s.present p.1 p.2) = .next t) (hrest : evaluate t ps = .next (lines, u)) :
    evaluate s (p :: ps) = .next ((t.text, t.illegal) :: lines, u) := by
  simp only [evaluate, hstep, hrest]

/-- What the host collects of the pair `p` (R16, R29). -/
abbrev lineOf (cfg : Config) (p : Word × Word) : Line :=
  (decodeText cfg p.1 p.2, decide (classify p.1 p.2 = .illegal))

/-- Along the sequence, the parameters are all that one evaluation leaves to the next. -/
theorem evaluate_lines (s : State) (pairs : List (Word × Word)) :
    ∃ u, evaluate s pairs = .next (pairs.map (lineOf s.cfg), u) := by
  induction pairs generalizing s with
  | nil => exact ⟨s, rfl⟩
  | cons p ps ih =>
    have hstep := step_eq_drive_classify (s.present p.1 p.2)
    obtain ⟨u, hu⟩ := ih ((s.present p.1 p.2).drive (classify p.1 p.2))
    refine ⟨u, (evaluate_cons_of_next hstep hu).trans ?_⟩
    simp [illegalFlag_eq_decide, decodeText]

/-- Settles O57, by the sequence's lines and its frame. -/
theorem sequencesDecodeEachPairOnItsOwn : Obligations.SequencesDecodeEachPairOnItsOwn := by
  intro s pairs
  obtain ⟨u, hu⟩ := evaluate_lines s pairs
  exact ⟨u, hu, evaluate_cfg hu⟩

/-! ## Listings -/

@[simp] theorem listingPairs_length (m : Memory) (n : Nat) (a : Word) : (listingPairs m n a).length = n := by
  induction n generalizing a with
  | zero => rfl
  | succ n ih => rw [listingPairs, List.length_cons, ih]

/-- R211: the address of pair `k` is `4k` past the first. -/
theorem listingPairs_getElem? (m : Memory) {n k : Nat} (a : Word) (hk : k < n) : (listingPairs m n a)[k]? =
    some (a + 4 * BitVec.ofNat 32 k, m.read32 (a + 4 * BitVec.ofNat 32 k)) := by
  induction n generalizing a k with
  | zero => exact absurd hk (Nat.not_lt_zero k)
  | succ n ih =>
    cases k with
    | zero => simp [listingPairs]
    | succ k =>
      have haddr : a + 4 * BitVec.ofNat 32 (k + 1) = a + 4 + 4 * BitVec.ofNat 32 k := by
        rw [BitVec.ofNat_add, mul_add, add_comm (4 * _), ← add_assoc]
        rfl
      rw [listingPairs, List.getElem?_cons_succ, ih (a + 4) (Nat.lt_of_succ_lt_succ hk), haddr]

/-- Settles O59: a listing is the sequence of its pairs. -/
theorem listingDecodesEachWordAtItsAddress : Obligations.ListingDecodesEachWordAtItsAddress := by
  intro m n a s
  obtain ⟨u, hu⟩ := evaluate_lines s (listingPairs m n a)
  refine ⟨_, u, hu, by simp, fun k hk => ?_⟩
  rw [List.getElem?_map, listingPairs_getElem? m a hk]
  rfl

end Sys2Proof.Machine
end
